-- ==== Sys2Proof/Word.lean ====
section
/-! DEFINITION. The two data widths of the TLCS870 core (spec/00_scope.md R8). -/

namespace Sys2Proof

/-- An 8-bit datum: a general register, a memory byte, an instruction byte (R8). -/
abbrev Byte := BitVec 8

/-- A 16-bit datum: a register pair, the program counter, the stack pointer, an address (R8). -/
abbrev Word := BitVec 16

end Sys2Proof
end

