-- ==== Sys2Proof/Syntax.lean ====
section
/-! DEFINITION. The instructions of the TLCS870 core: one constructor of `Instr` for each row of
spec/opcode_table.json, with its operands (spec/30_encoding.md R74, R75, R78, R86 to R91). -/

namespace Sys2Proof

/-- The eight general registers (R12, R20), numbered in this order. -/
inductive Reg
  | a | w | c | b | e | d | l | h
  deriving DecidableEq, Repr

/-- The four register pairs (R12, R24), numbered in this order: WA, BC, DE, HL. -/
inductive Pair
  | wa | bc | de | hl
  deriving DecidableEq, Repr

/-- The low register 2p of pair p (R24). -/
def Pair.lo : Pair → Reg
  | .wa => .a | .bc => .c | .de => .e | .hl => .l

/-- The high register 2p+1 of pair p (R24). -/
def Pair.hi : Pair → Reg
  | .wa => .w | .bc => .b | .de => .d | .hl => .h

/-- The condition codes of JR cc, in the order of their numbers 0 to 7 (R77). -/
inductive Cond
  | eq | ne | lt | ge | le | gt | always | never
  deriving DecidableEq, Repr

/-- The ALU operations, in the order of their numbers 0 to 7 (R76). -/
inductive AluOp
  | addc | add | subb | sub | and | xor | or | cmp
  deriving DecidableEq, Repr

/-- The eight addressing modes of the source and destination groups, in the order of their numbers 0 to 7, with
the extension byte of the two that have one (R78). -/
inductive Mode
  /-- (x), the direct page (R79). -/
  | direct (x : Byte)
  /-- (PC+A) (R80). -/
  | pcA
  /-- (DE) (R81). -/
  | de
  /-- (HL) (R81). -/
  | hl
  /-- (HL+d) (R82). -/
  | hlDisp (d : Byte)
  /-- (HL+C) (R82). -/
  | hlC
  /-- (HL+), post-increment (R83). -/
  | hlInc
  /-- (-HL), pre-decrement (R84). -/
  | hlDec
  deriving DecidableEq, Repr

/-- The instructions: one constructor for each row of spec/opcode_table.json. `r`, `g` are registers, `rr`, `gg`
pairs, `n`, `mn` immediates, `x`, `y` direct addresses, `d`, `d5` signed displacements, `b` a bit number, `m` an
addressing mode, `pp` the pointer pair of a (pp).g form (R12). The operand written first is the destination. -/
inductive Instr
  /-- NOP (R216). -/
  | nop
  /-- SWAP A (R183). -/
  | swapA
  /-- MUL W,A (R163). -/
  | mulWA
  /-- DIV WA,C (R166). -/
  | divWaC
  /-- RETI (R230). -/
  | reti
  /-- RET (R229). -/
  | ret
  /-- POP PSW (R127). -/
  | popPsw
  /-- PUSH PSW (R126). -/
  | pushPsw
  /-- DAA A (R169). -/
  | daaA
  /-- DAS A (R172). -/
  | dasA
  /-- CLR CF (R190). -/
  | clrCf
  /-- SET CF (R191). -/
  | setCf
  /-- CPL CF (R192). -/
  | cplCf
  /-- LD RBS,n (R233). -/
  | ldRbsN (n : Byte)
  /-- INC rr (R155). -/
  | incRr (rr : Pair)
  /-- LD rr,mn (R113). -/
  | ldRrMn (rr : Pair) (mn : Word)
  /-- DEC rr (R156). -/
  | decRr (rr : Pair)
  /-- SHLC A (R175). -/
  | shlcA
  /-- SHRC A (R176). -/
  | shrcA
  /-- ROLC A (R177). -/
  | rolcA
  /-- RORC A (R178). -/
  | rorcA
  /-- INC (x) (R157). -/
  | incX (x : Byte)
  /-- INC (HL) (R158). -/
  | incHl
  /-- LD A,(x) (R101). -/
  | ldAX (x : Byte)
  /-- LD A,(HL) (R102). -/
  | ldAHl
  /-- LDW (x),mn (R117). -/
  | ldwXMn (x : Byte) (mn : Word)
  /-- LDW (HL),mn (R118). -/
  | ldwHlMn (mn : Word)
  /-- LD (x),(y) (R110). -/
  | ldXY (x : Byte) (y : Byte)
  /-- DEC (x) (R160). -/
  | decX (x : Byte)
  /-- DEC (HL) (R161). -/
  | decHl
  /-- LD (x),A (R104). -/
  | ldXA (x : Byte)
  /-- LD (HL),A (R105). -/
  | ldHlA
  /-- LD (x),n (R107). -/
  | ldXN (x : Byte) (n : Byte)
  /-- LD (HL),n (R108). -/
  | ldHlN (n : Byte)
  /-- CLR (x) (R119). -/
  | clrX (x : Byte)
  /-- CLR (HL) (R120). -/
  | clrHl
  /-- LD r,n (R99). -/
  | ldRN (r : Reg) (n : Byte)
  /-- SET (x).b (R193). -/
  | setXB (x : Byte) (b : BitVec 3)
  /-- CLR (x).b (R194). -/
  | clrXB (x : Byte) (b : BitVec 3)
  /-- LD A,r (R97). -/
  | ldAR (r : Reg)
  /-- LD r,A (R98). -/
  | ldRA (r : Reg)
  /-- INC r (R153). -/
  | incR (r : Reg)
  /-- DEC r (R154). -/
  | decR (r : Reg)
  /-- ADDC A,n (R141). -/
  | addcAN (n : Byte)
  /-- ADD A,n (R141). -/
  | addAN (n : Byte)
  /-- SUBB A,n (R141). -/
  | subbAN (n : Byte)
  /-- SUB A,n (R141). -/
  | subAN (n : Byte)
  /-- AND A,n (R141). -/
  | andAN (n : Byte)
  /-- XOR A,n (R141). -/
  | xorAN (n : Byte)
  /-- OR A,n (R141). -/
  | orAN (n : Byte)
  /-- CMP A,n (R141). -/
  | cmpAN (n : Byte)
  /-- ADDC A,(x) (R142). -/
  | addcAX (x : Byte)
  /-- ADD A,(x) (R142). -/
  | addAX (x : Byte)
  /-- SUBB A,(x) (R142). -/
  | subbAX (x : Byte)
  /-- SUB A,(x) (R142). -/
  | subAX (x : Byte)
  /-- AND A,(x) (R142). -/
  | andAX (x : Byte)
  /-- XOR A,(x) (R142). -/
  | xorAX (x : Byte)
  /-- OR A,(x) (R142). -/
  | orAX (x : Byte)
  /-- CMP A,(x) (R142). -/
  | cmpAX (x : Byte)
  /-- JRS T,a (R217). -/
  | jrsT (d5 : BitVec 5)
  /-- JRS F,a (R218). -/
  | jrsF (d5 : BitVec 5)
  /-- CALLV v4 (R227). -/
  | callv (v4 : BitVec 4)
  /-- JR cc,a (R219). -/
  | jrCc (cc : Cond) (d : Byte)
  /-- LD CF,(x).b (R195). -/
  | ldCfXB (x : Byte) (b : BitVec 3)
  /-- JR a (R220). -/
  | jr (d : Byte)
  /-- ROLD A,(src) (R185). -/
  | roldASrc (m : Mode)
  /-- RORD A,(src) (R186). -/
  | rordASrc (m : Mode)
  /-- LD rr,(src) (R115). -/
  | ldRrSrc (rr : Pair) (m : Mode)
  /-- INC (src) (R159). -/
  | incSrc (m : Mode)
  /-- LD (x),(src) (R111). -/
  | ldXSrc (x : Byte) (m : Mode)
  /-- LD (HL),(src) (R112). -/
  | ldHlSrc (m : Mode)
  /-- DEC (src) (R162). -/
  | decSrc (m : Mode)
  /-- MCMP (src),n (R149). -/
  | mcmpSrcN (m : Mode) (n : Byte)
  /-- SET (src).b (R196). -/
  | setSrcB (m : Mode) (b : BitVec 3)
  /-- CLR (src).b (R197). -/
  | clrSrcB (m : Mode) (b : BitVec 3)
  /-- TEST (src).b (R198). -/
  | testSrcB (m : Mode) (b : BitVec 3)
  /-- LD r,(src) (R103). -/
  | ldRSrc (r : Reg) (m : Mode)
  /-- ADDC (src),(HL) (R148). -/
  | addcSrcHl (m : Mode)
  /-- ADD (src),(HL) (R148). -/
  | addSrcHl (m : Mode)
  /-- SUBB (src),(HL) (R148). -/
  | subbSrcHl (m : Mode)
  /-- SUB (src),(HL) (R148). -/
  | subSrcHl (m : Mode)
  /-- AND (src),(HL) (R148). -/
  | andSrcHl (m : Mode)
  /-- XOR (src),(HL) (R148). -/
  | xorSrcHl (m : Mode)
  /-- OR (src),(HL) (R148). -/
  | orSrcHl (m : Mode)
  /-- CMP (src),(HL) (R148). -/
  | cmpSrcHl (m : Mode)
  /-- ADDC (src),n (R147). -/
  | addcSrcN (m : Mode) (n : Byte)
  /-- ADD (src),n (R147). -/
  | addSrcN (m : Mode) (n : Byte)
  /-- SUBB (src),n (R147). -/
  | subbSrcN (m : Mode) (n : Byte)
  /-- SUB (src),n (R147). -/
  | subSrcN (m : Mode) (n : Byte)
  /-- AND (src),n (R147). -/
  | andSrcN (m : Mode) (n : Byte)
  /-- XOR (src),n (R147). -/
  | xorSrcN (m : Mode) (n : Byte)
  /-- OR (src),n (R147). -/
  | orSrcN (m : Mode) (n : Byte)
  /-- CMP (src),n (R147). -/
  | cmpSrcN (m : Mode) (n : Byte)
  /-- ADDC A,(src) (R143). -/
  | addcASrc (m : Mode)
  /-- ADD A,(src) (R143). -/
  | addASrc (m : Mode)
  /-- SUBB A,(src) (R143). -/
  | subbASrc (m : Mode)
  /-- SUB A,(src) (R143). -/
  | subASrc (m : Mode)
  /-- AND A,(src) (R143). -/
  | andASrc (m : Mode)
  /-- XOR A,(src) (R143). -/
  | xorASrc (m : Mode)
  /-- OR A,(src) (R143). -/
  | orASrc (m : Mode)
  /-- CMP A,(src) (R143). -/
  | cmpASrc (m : Mode)
  /-- XCH r,(src) (R123). -/
  | xchRSrc (r : Reg) (m : Mode)
  /-- CPL (src).b (R199). -/
  | cplSrcB (m : Mode) (b : BitVec 3)
  /-- LD (src).b,CF (R200). -/
  | ldSrcBCf (m : Mode) (b : BitVec 3)
  /-- XOR CF,(src).b (R201). -/
  | xorCfSrcB (m : Mode) (b : BitVec 3)
  /-- LD CF,(src).b (R202). -/
  | ldCfSrcB (m : Mode) (b : BitVec 3)
  /-- CALL (src) (R226). -/
  | callSrc (m : Mode)
  /-- JP (src) (R223). -/
  | jpSrc (m : Mode)
  /-- LD (dst),rr (R116). -/
  | ldDstRr (m : Mode) (rr : Pair)
  /-- LD (dst),n (R109). -/
  | ldDstN (m : Mode) (n : Byte)
  /-- LD (dst),r (R106). -/
  | ldDstR (m : Mode) (r : Reg)
  /-- SWAP g (R184). -/
  | swapG (g : Reg)
  /-- MUL ggH,ggL (R164). -/
  | mulGg (gg : Pair)
  /-- DIV gg,C (R167). -/
  | divGgC (gg : Pair)
  /-- RETN (R231). -/
  | retn
  /-- POP gg (R125). -/
  | popGg (gg : Pair)
  /-- PUSH gg (R124). -/
  | pushGg (gg : Pair)
  /-- DAA g (R170). -/
  | daaG (g : Reg)
  /-- DAS g (R173). -/
  | dasG (g : Reg)
  /-- XCH rr,gg (R122). -/
  | xchRrGg (rr : Pair) (gg : Pair)
  /-- LD rr,gg (R114). -/
  | ldRrGg (rr : Pair) (gg : Pair)
  /-- SHLC g (R179). -/
  | shlcG (g : Reg)
  /-- SHRC g (R180). -/
  | shrcG (g : Reg)
  /-- ROLC g (R181). -/
  | rolcG (g : Reg)
  /-- RORC g (R182). -/
  | rorcG (g : Reg)
  /-- ADDC WA,gg (R150). -/
  | addcWaGg (gg : Pair)
  /-- ADD WA,gg (R150). -/
  | addWaGg (gg : Pair)
  /-- SUBB WA,gg (R150). -/
  | subbWaGg (gg : Pair)
  /-- SUB WA,gg (R150). -/
  | subWaGg (gg : Pair)
  /-- AND WA,gg (R150). -/
  | andWaGg (gg : Pair)
  /-- XOR WA,gg (R150). -/
  | xorWaGg (gg : Pair)
  /-- OR WA,gg (R150). -/
  | orWaGg (gg : Pair)
  /-- CMP WA,gg (R150). -/
  | cmpWaGg (gg : Pair)
  /-- ADDC gg,mn (R151). -/
  | addcGgMn (gg : Pair) (mn : Word)
  /-- ADD gg,mn (R151). -/
  | addGgMn (gg : Pair) (mn : Word)
  /-- SUBB gg,mn (R151). -/
  | subbGgMn (gg : Pair) (mn : Word)
  /-- SUB gg,mn (R151). -/
  | subGgMn (gg : Pair) (mn : Word)
  /-- AND gg,mn (R151). -/
  | andGgMn (gg : Pair) (mn : Word)
  /-- XOR gg,mn (R151). -/
  | xorGgMn (gg : Pair) (mn : Word)
  /-- OR gg,mn (R151). -/
  | orGgMn (gg : Pair) (mn : Word)
  /-- CMP gg,mn (R151). -/
  | cmpGgMn (gg : Pair) (mn : Word)
  /-- SET g.b (R203). -/
  | setGB (g : Reg) (b : BitVec 3)
  /-- CLR g.b (R204). -/
  | clrGB (g : Reg) (b : BitVec 3)
  /-- LD r,g (R100). -/
  | ldRG (r : Reg) (g : Reg)
  /-- ADDC A,g (R144). -/
  | addcAG (g : Reg)
  /-- ADD A,g (R144). -/
  | addAG (g : Reg)
  /-- SUBB A,g (R144). -/
  | subbAG (g : Reg)
  /-- SUB A,g (R144). -/
  | subAG (g : Reg)
  /-- AND A,g (R144). -/
  | andAG (g : Reg)
  /-- XOR A,g (R144). -/
  | xorAG (g : Reg)
  /-- OR A,g (R144). -/
  | orAG (g : Reg)
  /-- CMP A,g (R144). -/
  | cmpAG (g : Reg)
  /-- ADDC g,A (R145). -/
  | addcGA (g : Reg)
  /-- ADD g,A (R145). -/
  | addGA (g : Reg)
  /-- SUBB g,A (R145). -/
  | subbGA (g : Reg)
  /-- SUB g,A (R145). -/
  | subGA (g : Reg)
  /-- AND g,A (R145). -/
  | andGA (g : Reg)
  /-- XOR g,A (R145). -/
  | xorGA (g : Reg)
  /-- OR g,A (R145). -/
  | orGA (g : Reg)
  /-- CMP g,A (R145). -/
  | cmpGA (g : Reg)
  /-- ADDC g,n (R146). -/
  | addcGN (g : Reg) (n : Byte)
  /-- ADD g,n (R146). -/
  | addGN (g : Reg) (n : Byte)
  /-- SUBB g,n (R146). -/
  | subbGN (g : Reg) (n : Byte)
  /-- SUB g,n (R146). -/
  | subGN (g : Reg) (n : Byte)
  /-- AND g,n (R146). -/
  | andGN (g : Reg) (n : Byte)
  /-- XOR g,n (R146). -/
  | xorGN (g : Reg) (n : Byte)
  /-- OR g,n (R146). -/
  | orGN (g : Reg) (n : Byte)
  /-- CMP g,n (R146). -/
  | cmpGN (g : Reg) (n : Byte)
  /-- SET (pp).g (R209). -/
  | setPpG (pp : Pair) (g : Reg)
  /-- CLR (pp).g (R210). -/
  | clrPpG (pp : Pair) (g : Reg)
  /-- CPL (pp).g (R211). -/
  | cplPpG (pp : Pair) (g : Reg)
  /-- LD (pp).g,CF (R212). -/
  | ldPpGCf (pp : Pair) (g : Reg)
  /-- LD CF,(pp).g (R213). -/
  | ldCfPpG (pp : Pair) (g : Reg)
  /-- XCH r,g (R121). -/
  | xchRG (r : Reg) (g : Reg)
  /-- CPL g.b (R205). -/
  | cplGB (g : Reg) (b : BitVec 3)
  /-- LD g.b,CF (R206). -/
  | ldGBCf (g : Reg) (b : BitVec 3)
  /-- XOR CF,g.b (R207). -/
  | xorCfGB (g : Reg) (b : BitVec 3)
  /-- LD CF,g.b (R208). -/
  | ldCfGB (g : Reg) (b : BitVec 3)
  /-- LD SP,gg (R129). -/
  | ldSpGg (gg : Pair)
  /-- LD gg,SP (R130). -/
  | ldGgSp (gg : Pair)
  /-- CALL gg (R225). -/
  | callGg (gg : Pair)
  /-- JP gg (R222). -/
  | jpGg (gg : Pair)
  /-- LD SP,mn (R128). -/
  | ldSpMn (mn : Word)
  /-- CALL mn (R224). -/
  | callMn (mn : Word)
  /-- CALLP n (R228). -/
  | callp (n : Byte)
  /-- JP mn (R221). -/
  | jpMn (mn : Word)
  /-- SWI (R232). -/
  | swi
  deriving DecidableEq, Repr

/-- The mnemonic of an instruction, as spec/opcode_table.json spells its row: what the event
`Executed(mnemonic)` names (R35). -/
def Instr.mnemonic : Instr → String
  | .nop => "NOP"
  | .swapA => "SWAP_A"
  | .mulWA => "MUL_W_A"
  | .divWaC => "DIV_WA_C"
  | .reti => "RETI"
  | .ret => "RET"
  | .popPsw => "POP_PSW"
  | .pushPsw => "PUSH_PSW"
  | .daaA => "DAA_A"
  | .dasA => "DAS_A"
  | .clrCf => "CLR_CF"
  | .setCf => "SET_CF"
  | .cplCf => "CPL_CF"
  | .ldRbsN _ => "LD_RBS_n"
  | .incRr _ => "INC_rr"
  | .ldRrMn _ _ => "LD_rr_mn"
  | .decRr _ => "DEC_rr"
  | .shlcA => "SHLC_A"
  | .shrcA => "SHRC_A"
  | .rolcA => "ROLC_A"
  | .rorcA => "RORC_A"
  | .incX _ => "INC__x"
  | .incHl => "INC__HL"
  | .ldAX _ => "LD_A__x"
  | .ldAHl => "LD_A__HL"
  | .ldwXMn _ _ => "LDW__x__mn"
  | .ldwHlMn _ => "LDW__HL__mn"
  | .ldXY _ _ => "LD__x___y"
  | .decX _ => "DEC__x"
  | .decHl => "DEC__HL"
  | .ldXA _ => "LD__x__A"
  | .ldHlA => "LD__HL__A"
  | .ldXN _ _ => "LD__x__n"
  | .ldHlN _ => "LD__HL__n"
  | .clrX _ => "CLR__x"
  | .clrHl => "CLR__HL"
  | .ldRN _ _ => "LD_r_n"
  | .setXB _ _ => "SET__x_.b"
  | .clrXB _ _ => "CLR__x_.b"
  | .ldAR _ => "LD_A_r"
  | .ldRA _ => "LD_r_A"
  | .incR _ => "INC_r"
  | .decR _ => "DEC_r"
  | .addcAN _ => "ADDC_A_n"
  | .addAN _ => "ADD_A_n"
  | .subbAN _ => "SUBB_A_n"
  | .subAN _ => "SUB_A_n"
  | .andAN _ => "AND_A_n"
  | .xorAN _ => "XOR_A_n"
  | .orAN _ => "OR_A_n"
  | .cmpAN _ => "CMP_A_n"
  | .addcAX _ => "ADDC_A__x"
  | .addAX _ => "ADD_A__x"
  | .subbAX _ => "SUBB_A__x"
  | .subAX _ => "SUB_A__x"
  | .andAX _ => "AND_A__x"
  | .xorAX _ => "XOR_A__x"
  | .orAX _ => "OR_A__x"
  | .cmpAX _ => "CMP_A__x"
  | .jrsT _ => "JRS_T_a"
  | .jrsF _ => "JRS_F_a"
  | .callv _ => "CALLV_v4"
  | .jrCc _ _ => "JR_cc_a"
  | .ldCfXB _ _ => "LD_CF__x_.b"
  | .jr _ => "JR_a"
  | .roldASrc _ => "ROLD_A__src"
  | .rordASrc _ => "RORD_A__src"
  | .ldRrSrc _ _ => "LD_rr__src"
  | .incSrc _ => "INC__src"
  | .ldXSrc _ _ => "LD__x___src"
  | .ldHlSrc _ => "LD__HL___src"
  | .decSrc _ => "DEC__src"
  | .mcmpSrcN _ _ => "MCMP__src__n"
  | .setSrcB _ _ => "SET__src_.b"
  | .clrSrcB _ _ => "CLR__src_.b"
  | .testSrcB _ _ => "TEST__src_.b"
  | .ldRSrc _ _ => "LD_r__src"
  | .addcSrcHl _ => "ADDC__src___HL"
  | .addSrcHl _ => "ADD__src___HL"
  | .subbSrcHl _ => "SUBB__src___HL"
  | .subSrcHl _ => "SUB__src___HL"
  | .andSrcHl _ => "AND__src___HL"
  | .xorSrcHl _ => "XOR__src___HL"
  | .orSrcHl _ => "OR__src___HL"
  | .cmpSrcHl _ => "CMP__src___HL"
  | .addcSrcN _ _ => "ADDC__src__n"
  | .addSrcN _ _ => "ADD__src__n"
  | .subbSrcN _ _ => "SUBB__src__n"
  | .subSrcN _ _ => "SUB__src__n"
  | .andSrcN _ _ => "AND__src__n"
  | .xorSrcN _ _ => "XOR__src__n"
  | .orSrcN _ _ => "OR__src__n"
  | .cmpSrcN _ _ => "CMP__src__n"
  | .addcASrc _ => "ADDC_A__src"
  | .addASrc _ => "ADD_A__src"
  | .subbASrc _ => "SUBB_A__src"
  | .subASrc _ => "SUB_A__src"
  | .andASrc _ => "AND_A__src"
  | .xorASrc _ => "XOR_A__src"
  | .orASrc _ => "OR_A__src"
  | .cmpASrc _ => "CMP_A__src"
  | .xchRSrc _ _ => "XCH_r__src"
  | .cplSrcB _ _ => "CPL__src_.b"
  | .ldSrcBCf _ _ => "LD__src_.b_CF"
  | .xorCfSrcB _ _ => "XOR_CF__src_.b"
  | .ldCfSrcB _ _ => "LD_CF__src_.b"
  | .callSrc _ => "CALL__src"
  | .jpSrc _ => "JP__src"
  | .ldDstRr _ _ => "LD__dst__rr"
  | .ldDstN _ _ => "LD__dst__n"
  | .ldDstR _ _ => "LD__dst__r"
  | .swapG _ => "SWAP_g"
  | .mulGg _ => "MUL_ggH_ggL"
  | .divGgC _ => "DIV_gg_C"
  | .retn => "RETN"
  | .popGg _ => "POP_gg"
  | .pushGg _ => "PUSH_gg"
  | .daaG _ => "DAA_g"
  | .dasG _ => "DAS_g"
  | .xchRrGg _ _ => "XCH_rr_gg"
  | .ldRrGg _ _ => "LD_rr_gg"
  | .shlcG _ => "SHLC_g"
  | .shrcG _ => "SHRC_g"
  | .rolcG _ => "ROLC_g"
  | .rorcG _ => "RORC_g"
  | .addcWaGg _ => "ADDC_WA_gg"
  | .addWaGg _ => "ADD_WA_gg"
  | .subbWaGg _ => "SUBB_WA_gg"
  | .subWaGg _ => "SUB_WA_gg"
  | .andWaGg _ => "AND_WA_gg"
  | .xorWaGg _ => "XOR_WA_gg"
  | .orWaGg _ => "OR_WA_gg"
  | .cmpWaGg _ => "CMP_WA_gg"
  | .addcGgMn _ _ => "ADDC_gg_mn"
  | .addGgMn _ _ => "ADD_gg_mn"
  | .subbGgMn _ _ => "SUBB_gg_mn"
  | .subGgMn _ _ => "SUB_gg_mn"
  | .andGgMn _ _ => "AND_gg_mn"
  | .xorGgMn _ _ => "XOR_gg_mn"
  | .orGgMn _ _ => "OR_gg_mn"
  | .cmpGgMn _ _ => "CMP_gg_mn"
  | .setGB _ _ => "SET_g.b"
  | .clrGB _ _ => "CLR_g.b"
  | .ldRG _ _ => "LD_r_g"
  | .addcAG _ => "ADDC_A_g"
  | .addAG _ => "ADD_A_g"
  | .subbAG _ => "SUBB_A_g"
  | .subAG _ => "SUB_A_g"
  | .andAG _ => "AND_A_g"
  | .xorAG _ => "XOR_A_g"
  | .orAG _ => "OR_A_g"
  | .cmpAG _ => "CMP_A_g"
  | .addcGA _ => "ADDC_g_A"
  | .addGA _ => "ADD_g_A"
  | .subbGA _ => "SUBB_g_A"
  | .subGA _ => "SUB_g_A"
  | .andGA _ => "AND_g_A"
  | .xorGA _ => "XOR_g_A"
  | .orGA _ => "OR_g_A"
  | .cmpGA _ => "CMP_g_A"
  | .addcGN _ _ => "ADDC_g_n"
  | .addGN _ _ => "ADD_g_n"
  | .subbGN _ _ => "SUBB_g_n"
  | .subGN _ _ => "SUB_g_n"
  | .andGN _ _ => "AND_g_n"
  | .xorGN _ _ => "XOR_g_n"
  | .orGN _ _ => "OR_g_n"
  | .cmpGN _ _ => "CMP_g_n"
  | .setPpG _ _ => "SET__pp_.g"
  | .clrPpG _ _ => "CLR__pp_.g"
  | .cplPpG _ _ => "CPL__pp_.g"
  | .ldPpGCf _ _ => "LD__pp_.g_CF"
  | .ldCfPpG _ _ => "LD_CF__pp_.g"
  | .xchRG _ _ => "XCH_r_g"
  | .cplGB _ _ => "CPL_g.b"
  | .ldGBCf _ _ => "LD_g.b_CF"
  | .xorCfGB _ _ => "XOR_CF_g.b"
  | .ldCfGB _ _ => "LD_CF_g.b"
  | .ldSpGg _ => "LD_SP_gg"
  | .ldGgSp _ => "LD_gg_SP"
  | .callGg _ => "CALL_gg"
  | .jpGg _ => "JP_gg"
  | .ldSpMn _ => "LD_SP_mn"
  | .callMn _ => "CALL_mn"
  | .callp _ => "CALLP_n"
  | .jpMn _ => "JP_mn"
  | .swi => "SWI"

end Sys2Proof
end

