-- ==== Sys2Proof/WellFormed.lean ====
section
/-! DEFINITION. Which terms of `Instr` are instructions of the core. The types of the operands already keep every
field within its width; what is left to check is the pointer of the (pp).g forms, which is DE or HL
(spec/30_encoding.md R74: pp 0 = DE, 1 = HL; spec/42_bit.md R189). -/

namespace Sys2Proof

/-- A pair that can be the pointer of a (pp).g form (R74, R189). -/
def Pair.isPointer : Pair → Bool
  | .de | .hl => true
  | .wa | .bc => false

/-- The instruction has an encoding in the tables of R86 to R91. -/
def Instr.wellFormed : Instr → Bool
  | .setPpG pp _ => pp.isPointer
  | .clrPpG pp _ => pp.isPointer
  | .cplPpG pp _ => pp.isPointer
  | .ldPpGCf pp _ => pp.isPointer
  | .ldCfPpG pp _ => pp.isPointer
  | .nop => true
  | .swapA => true
  | .mulWA => true
  | .divWaC => true
  | .reti => true
  | .ret => true
  | .popPsw => true
  | .pushPsw => true
  | .daaA => true
  | .dasA => true
  | .clrCf => true
  | .setCf => true
  | .cplCf => true
  | .ldRbsN _ => true
  | .incRr _ => true
  | .ldRrMn _ _ => true
  | .decRr _ => true
  | .shlcA => true
  | .shrcA => true
  | .rolcA => true
  | .rorcA => true
  | .incX _ => true
  | .incHl => true
  | .ldAX _ => true
  | .ldAHl => true
  | .ldwXMn _ _ => true
  | .ldwHlMn _ => true
  | .ldXY _ _ => true
  | .decX _ => true
  | .decHl => true
  | .ldXA _ => true
  | .ldHlA => true
  | .ldXN _ _ => true
  | .ldHlN _ => true
  | .clrX _ => true
  | .clrHl => true
  | .ldRN _ _ => true
  | .setXB _ _ => true
  | .clrXB _ _ => true
  | .ldAR _ => true
  | .ldRA _ => true
  | .incR _ => true
  | .decR _ => true
  | .addcAN _ => true
  | .addAN _ => true
  | .subbAN _ => true
  | .subAN _ => true
  | .andAN _ => true
  | .xorAN _ => true
  | .orAN _ => true
  | .cmpAN _ => true
  | .addcAX _ => true
  | .addAX _ => true
  | .subbAX _ => true
  | .subAX _ => true
  | .andAX _ => true
  | .xorAX _ => true
  | .orAX _ => true
  | .cmpAX _ => true
  | .jrsT _ => true
  | .jrsF _ => true
  | .callv _ => true
  | .jrCc _ _ => true
  | .ldCfXB _ _ => true
  | .jr _ => true
  | .roldASrc _ => true
  | .rordASrc _ => true
  | .ldRrSrc _ _ => true
  | .incSrc _ => true
  | .ldXSrc _ _ => true
  | .ldHlSrc _ => true
  | .decSrc _ => true
  | .mcmpSrcN _ _ => true
  | .setSrcB _ _ => true
  | .clrSrcB _ _ => true
  | .testSrcB _ _ => true
  | .ldRSrc _ _ => true
  | .addcSrcHl _ => true
  | .addSrcHl _ => true
  | .subbSrcHl _ => true
  | .subSrcHl _ => true
  | .andSrcHl _ => true
  | .xorSrcHl _ => true
  | .orSrcHl _ => true
  | .cmpSrcHl _ => true
  | .addcSrcN _ _ => true
  | .addSrcN _ _ => true
  | .subbSrcN _ _ => true
  | .subSrcN _ _ => true
  | .andSrcN _ _ => true
  | .xorSrcN _ _ => true
  | .orSrcN _ _ => true
  | .cmpSrcN _ _ => true
  | .addcASrc _ => true
  | .addASrc _ => true
  | .subbASrc _ => true
  | .subASrc _ => true
  | .andASrc _ => true
  | .xorASrc _ => true
  | .orASrc _ => true
  | .cmpASrc _ => true
  | .xchRSrc _ _ => true
  | .cplSrcB _ _ => true
  | .ldSrcBCf _ _ => true
  | .xorCfSrcB _ _ => true
  | .ldCfSrcB _ _ => true
  | .callSrc _ => true
  | .jpSrc _ => true
  | .ldDstRr _ _ => true
  | .ldDstN _ _ => true
  | .ldDstR _ _ => true
  | .swapG _ => true
  | .mulGg _ => true
  | .divGgC _ => true
  | .retn => true
  | .popGg _ => true
  | .pushGg _ => true
  | .daaG _ => true
  | .dasG _ => true
  | .xchRrGg _ _ => true
  | .ldRrGg _ _ => true
  | .shlcG _ => true
  | .shrcG _ => true
  | .rolcG _ => true
  | .rorcG _ => true
  | .addcWaGg _ => true
  | .addWaGg _ => true
  | .subbWaGg _ => true
  | .subWaGg _ => true
  | .andWaGg _ => true
  | .xorWaGg _ => true
  | .orWaGg _ => true
  | .cmpWaGg _ => true
  | .addcGgMn _ _ => true
  | .addGgMn _ _ => true
  | .subbGgMn _ _ => true
  | .subGgMn _ _ => true
  | .andGgMn _ _ => true
  | .xorGgMn _ _ => true
  | .orGgMn _ _ => true
  | .cmpGgMn _ _ => true
  | .setGB _ _ => true
  | .clrGB _ _ => true
  | .ldRG _ _ => true
  | .addcAG _ => true
  | .addAG _ => true
  | .subbAG _ => true
  | .subAG _ => true
  | .andAG _ => true
  | .xorAG _ => true
  | .orAG _ => true
  | .cmpAG _ => true
  | .addcGA _ => true
  | .addGA _ => true
  | .subbGA _ => true
  | .subGA _ => true
  | .andGA _ => true
  | .xorGA _ => true
  | .orGA _ => true
  | .cmpGA _ => true
  | .addcGN _ _ => true
  | .addGN _ _ => true
  | .subbGN _ _ => true
  | .subGN _ _ => true
  | .andGN _ _ => true
  | .xorGN _ _ => true
  | .orGN _ _ => true
  | .cmpGN _ _ => true
  | .xchRG _ _ => true
  | .cplGB _ _ => true
  | .ldGBCf _ _ => true
  | .xorCfGB _ _ => true
  | .ldCfGB _ _ => true
  | .ldSpGg _ => true
  | .ldGgSp _ => true
  | .callGg _ => true
  | .jpGg _ => true
  | .ldSpMn _ => true
  | .callMn _ => true
  | .callp _ => true
  | .jpMn _ => true
  | .swi => true

end Sys2Proof
end

