-- ==== Sys2Proof/Decode.lean ====
section
/-! DEFINITION. The decoder, total on any list of bytes and rejecting by name (spec/30_encoding.md R73 to R94), and
after it the encoder, written from the same tables. -/

namespace Sys2Proof

/-! ## Fields -/

/-- The low byte n of a 16-bit immediate m:n (R75). -/
def loByte (v : Word) : Byte := v.setWidth 8

/-- The high byte m of a 16-bit immediate m:n (R75). -/
def hiByte (v : Word) : Byte := (v >>> 8).setWidth 8

/-- The 16-bit value hi:lo (R10, R11). -/
def joinBytes (lo hi : Byte) : Word := hi ++ lo

/-- Bits 7..3 of an opcode byte, which select a row of the maps of R86 to R91. -/
def rowField (o : Byte) : Nat := (o >>> 3).toNat

/-- Bits 2..0 of an opcode byte: the fields r, op, bit, cc, m and g (R74). -/
def lowField (o : Byte) : BitVec 3 := o.setWidth 3

/-- The register a 3-bit field names (R12). -/
def Reg.ofField (v : BitVec 3) : Reg :=
  match v.toNat with
  | 0 => .a | 1 => .w | 2 => .c | 3 => .b | 4 => .e | 5 => .d | 6 => .l | _ => .h

/-- The register number, in an opcode byte (R12). -/
def Reg.code : Reg → Byte
  | .a => 0 | .w => 1 | .c => 2 | .b => 3 | .e => 4 | .d => 5 | .l => 6 | .h => 7

/-- The pair that the low two bits of a field name (R12, R74). -/
def Pair.ofField (v : BitVec 3) : Pair :=
  match v.toNat % 4 with
  | 0 => .wa | 1 => .bc | 2 => .de | _ => .hl

/-- The pair number, in an opcode byte (R12). -/
def Pair.code : Pair → Byte
  | .wa => 0 | .bc => 1 | .de => 2 | .hl => 3

/-- The pointer of a (pp).g form: 0 = DE, 1 = HL (R74). -/
def pointerOfField (v : BitVec 3) : Pair := if v.getLsbD 0 then .hl else .de

/-- The pointer field pp: DE = 0, HL = 1 (R74). A pair that is no pointer has no code, and its instruction is not
well formed. -/
def ptrCode : Pair → Byte
  | .hl => 1
  | .wa | .bc | .de => 0

/-- The condition that a 3-bit field names (R77). -/
def Cond.ofField (v : BitVec 3) : Cond :=
  match v.toNat with
  | 0 => .eq | 1 => .ne | 2 => .lt | 3 => .ge | 4 => .le | 5 => .gt | 6 => .always | _ => .never

/-- The condition code number, in an opcode byte (R77). -/
def Cond.code : Cond → Byte
  | .eq => 0 | .ne => 1 | .lt => 2 | .ge => 3 | .le => 4 | .gt => 5 | .always => 6 | .never => 7

/-- The ALU operation that a 3-bit field names (R76). -/
def AluOp.ofField (v : BitVec 3) : AluOp :=
  match v.toNat with
  | 0 => .addc | 1 => .add | 2 => .subb | 3 => .sub | 4 => .and | 5 => .xor | 6 => .or | _ => .cmp

/-- The bit number, in an opcode byte (R74). -/
def bitCode (b : BitVec 3) : Byte := b.setWidth 8

/-! ## The instruction of an ALU operation in each operand form (R141 to R151) -/

/-- ALU A,n (R141). -/
def aluAN (op : AluOp) (n : Byte) : Instr :=
  match op with
  | .addc => .addcAN n
  | .add => .addAN n
  | .subb => .subbAN n
  | .sub => .subAN n
  | .and => .andAN n
  | .xor => .xorAN n
  | .or => .orAN n
  | .cmp => .cmpAN n

/-- ALU A,(x) (R142). -/
def aluAX (op : AluOp) (x : Byte) : Instr :=
  match op with
  | .addc => .addcAX x
  | .add => .addAX x
  | .subb => .subbAX x
  | .sub => .subAX x
  | .and => .andAX x
  | .xor => .xorAX x
  | .or => .orAX x
  | .cmp => .cmpAX x

/-- ALU A,(src) (R143). -/
def aluASrc (op : AluOp) (m : Mode) : Instr :=
  match op with
  | .addc => .addcASrc m
  | .add => .addASrc m
  | .subb => .subbASrc m
  | .sub => .subASrc m
  | .and => .andASrc m
  | .xor => .xorASrc m
  | .or => .orASrc m
  | .cmp => .cmpASrc m

/-- ALU A,g (R144). -/
def aluAG (op : AluOp) (g : Reg) : Instr :=
  match op with
  | .addc => .addcAG g
  | .add => .addAG g
  | .subb => .subbAG g
  | .sub => .subAG g
  | .and => .andAG g
  | .xor => .xorAG g
  | .or => .orAG g
  | .cmp => .cmpAG g

/-- ALU g,A (R145). -/
def aluGA (op : AluOp) (g : Reg) : Instr :=
  match op with
  | .addc => .addcGA g
  | .add => .addGA g
  | .subb => .subbGA g
  | .sub => .subGA g
  | .and => .andGA g
  | .xor => .xorGA g
  | .or => .orGA g
  | .cmp => .cmpGA g

/-- ALU g,n (R146). -/
def aluGN (op : AluOp) (g : Reg) (n : Byte) : Instr :=
  match op with
  | .addc => .addcGN g n
  | .add => .addGN g n
  | .subb => .subbGN g n
  | .sub => .subGN g n
  | .and => .andGN g n
  | .xor => .xorGN g n
  | .or => .orGN g n
  | .cmp => .cmpGN g n

/-- ALU (src),n (R147). -/
def aluSrcN (op : AluOp) (m : Mode) (n : Byte) : Instr :=
  match op with
  | .addc => .addcSrcN m n
  | .add => .addSrcN m n
  | .subb => .subbSrcN m n
  | .sub => .subSrcN m n
  | .and => .andSrcN m n
  | .xor => .xorSrcN m n
  | .or => .orSrcN m n
  | .cmp => .cmpSrcN m n

/-- ALU (src),(HL) (R148). -/
def aluSrcHl (op : AluOp) (m : Mode) : Instr :=
  match op with
  | .addc => .addcSrcHl m
  | .add => .addSrcHl m
  | .subb => .subbSrcHl m
  | .sub => .subSrcHl m
  | .and => .andSrcHl m
  | .xor => .xorSrcHl m
  | .or => .orSrcHl m
  | .cmp => .cmpSrcHl m

/-- ALU WA,gg (R150). -/
def aluWaGg (op : AluOp) (gg : Pair) : Instr :=
  match op with
  | .addc => .addcWaGg gg
  | .add => .addWaGg gg
  | .subb => .subbWaGg gg
  | .sub => .subWaGg gg
  | .and => .andWaGg gg
  | .xor => .xorWaGg gg
  | .or => .orWaGg gg
  | .cmp => .cmpWaGg gg

/-- ALU gg,mn (R151). -/
def aluGgMn (op : AluOp) (gg : Pair) (mn : Word) : Instr :=
  match op with
  | .addc => .addcGgMn gg mn
  | .add => .addGgMn gg mn
  | .subb => .subbGgMn gg mn
  | .sub => .subGgMn gg mn
  | .and => .andGgMn gg mn
  | .xor => .xorGgMn gg mn
  | .or => .orGgMn gg mn
  | .cmp => .cmpGgMn gg mn


/-! ## The decoder -/

/-- Why a byte sequence is illegal (R92). -/
inductive Illegal
  /-- The first byte is 0x08, 0x09, 0x27, 0x38-0x3F, 0xF8-0xFA or 0xFC-0xFE (R86). -/
  | firstByte
  /-- The operation byte of the source group is "any other" (R87). -/
  | sourceOp
  /-- The operation byte of the destination group is "any other" (R88). -/
  | destOp
  /-- The operation byte of the register prefix is "any other" (R89). -/
  | registerOp
  /-- A 16-bit operation of the register prefix with g >= 4 (R90). -/
  | pairOperand
  /-- RETN with g other than 0 (R90). -/
  | retnOperand
  /-- The operation byte of the control-transfer group is "any other" (R91). -/
  | controlOp
  deriving DecidableEq, Repr

/-- What the decoder reads from the bytes fetched so far. -/
inductive Decoded
  /-- The bytes are the beginning of an instruction: one more byte is to be fetched. -/
  | more
  /-- The bytes begin with this instruction, and `rest` follows it. -/
  | instr (i : Instr) (rest : List Byte)
  /-- The bytes match no instruction; the last byte looked at is the one that failed to match (R92). -/
  | illegal (why : Illegal)
  deriving DecidableEq, Repr

/-- An instruction whose last byte is the 8-bit immediate n, x, y or d (R75). -/
def withImm8 (k : Byte → Instr) : List Byte → Decoded
  | [] => .more
  | n :: rest => .instr (k n) rest

/-- An instruction whose last two bytes are the 16-bit immediate mn, low byte first (R75). -/
def withImm16 (k : Word → Instr) : List Byte → Decoded
  | n :: m :: rest => .instr (k (joinBytes n m)) rest
  | _ => .more

/-- The first-byte rows 0x00 to 0x07 (R86). -/
def decodeRow0 (v : BitVec 3) (rest : List Byte) : Decoded :=
  match v.toNat with
  | 0 => .instr .nop rest
  | 1 => .instr .swapA rest
  | 2 => .instr .mulWA rest
  | 3 => .instr .divWaC rest
  | 4 => .instr .reti rest
  | 5 => .instr .ret rest
  | 6 => .instr .popPsw rest
  | _ => .instr .pushPsw rest

/-- The first-byte rows 0x08 to 0x0F (R86). -/
def decodeRow1 (v : BitVec 3) (rest : List Byte) : Decoded :=
  match v.toNat with
  | 2 => .instr .daaA rest
  | 3 => .instr .dasA rest
  | 4 => .instr .clrCf rest
  | 5 => .instr .setCf rest
  | 6 => .instr .cplCf rest
  | 7 => withImm8 .ldRbsN rest
  | _ => .illegal .firstByte

/-- The first-byte rows 0x18 to 0x1F (R86). -/
def decodeRow3 (v : BitVec 3) (rest : List Byte) : Decoded :=
  match v.toNat with
  | 4 => .instr .shlcA rest
  | 5 => .instr .shrcA rest
  | 6 => .instr .rolcA rest
  | 7 => .instr .rorcA rest
  | _ => .instr (.decRr (Pair.ofField v)) rest

/-- The first-byte rows 0x20 to 0x27 (R86). LDW (x),mn lists x, n, m and LD (x),(y) lists y, x. -/
def decodeRow4 (v : BitVec 3) (rest : List Byte) : Decoded :=
  match v.toNat, rest with
  | 0, rest => withImm8 .incX rest
  | 1, rest => .instr .incHl rest
  | 2, rest => withImm8 .ldAX rest
  | 3, rest => .instr .ldAHl rest
  | 4, x :: rest => withImm16 (.ldwXMn x) rest
  | 4, [] => .more
  | 5, rest => withImm16 .ldwHlMn rest
  | 6, y :: rest => withImm8 (fun x => .ldXY x y) rest
  | 6, [] => .more
  | _, _ => .illegal .firstByte

/-- The first-byte rows 0x28 to 0x2F (R86). -/
def decodeRow5 (v : BitVec 3) (rest : List Byte) : Decoded :=
  match v.toNat, rest with
  | 0, rest => withImm8 .decX rest
  | 1, rest => .instr .decHl rest
  | 2, rest => withImm8 .ldXA rest
  | 3, rest => .instr .ldHlA rest
  | 4, x :: rest => withImm8 (.ldXN x) rest
  | 4, [] => .more
  | 5, rest => withImm8 .ldHlN rest
  | 6, rest => withImm8 .clrX rest
  | _, rest => .instr .clrHl rest

/-- The single-byte group, except for the first bytes 0xF8 to 0xFF (R86). -/
def decodeSingle (b0 : Byte) (rest : List Byte) : Decoded :=
  let v := lowField b0
  match rowField b0 with
  | 0x00 => decodeRow0 v rest
  | 0x01 => decodeRow1 v rest
  | 0x02 => if v.getLsbD 2 then withImm16 (.ldRrMn (Pair.ofField v)) rest else .instr (.incRr (Pair.ofField v)) rest
  | 0x03 => decodeRow3 v rest
  | 0x04 => decodeRow4 v rest
  | 0x05 => decodeRow5 v rest
  | 0x06 => withImm8 (.ldRN (Reg.ofField v)) rest
  | 0x08 => withImm8 (fun x => .setXB x v) rest
  | 0x09 => withImm8 (fun x => .clrXB x v) rest
  | 0x0A => .instr (.ldAR (Reg.ofField v)) rest
  | 0x0B => .instr (.ldRA (Reg.ofField v)) rest
  | 0x0C => .instr (.incR (Reg.ofField v)) rest
  | 0x0D => .instr (.decR (Reg.ofField v)) rest
  | 0x0E => withImm8 (aluAN (AluOp.ofField v)) rest
  | 0x0F => withImm8 (aluAX (AluOp.ofField v)) rest
  | 0x10 | 0x11 | 0x12 | 0x13 => .instr (.jrsT (b0.setWidth 5)) rest
  | 0x14 | 0x15 | 0x16 | 0x17 => .instr (.jrsF (b0.setWidth 5)) rest
  | 0x18 | 0x19 => .instr (.callv (b0.setWidth 4)) rest
  | 0x1A => withImm8 (.jrCc (Cond.ofField v)) rest
  | 0x1B => withImm8 (fun x => .ldCfXB x v) rest
  | _ => .illegal .firstByte

/-- The operation byte of the source group and what follows it (R87). -/
def decodeSource (m : Mode) (o : Byte) (rest : List Byte) : Decoded :=
  let v := lowField o
  match rowField o, v.toNat with
  | 0x01, 0 => .instr (.roldASrc m) rest
  | 0x01, 1 => .instr (.rordASrc m) rest
  | 0x02, _ => if v.getLsbD 2 then .instr (.ldRrSrc (Pair.ofField v) m) rest else .illegal .sourceOp
  | 0x04, 0 => .instr (.incSrc m) rest
  | 0x04, 6 => withImm8 (fun x => .ldXSrc x m) rest
  | 0x04, 7 => .instr (.ldHlSrc m) rest
  | 0x05, 0 => .instr (.decSrc m) rest
  | 0x05, 7 => withImm8 (.mcmpSrcN m) rest
  | 0x08, _ => .instr (.setSrcB m v) rest
  | 0x09, _ => .instr (.clrSrcB m v) rest
  | 0x0A, _ => .instr (.testSrcB m v) rest
  | 0x0B, _ => .instr (.ldRSrc (Reg.ofField v) m) rest
  | 0x0C, _ => .instr (aluSrcHl (AluOp.ofField v) m) rest
  | 0x0D, _ => withImm8 (aluSrcN (AluOp.ofField v) m) rest
  | 0x0F, _ => .instr (aluASrc (AluOp.ofField v) m) rest
  | 0x15, _ => .instr (.xchRSrc (Reg.ofField v) m) rest
  | 0x18, _ => .instr (.cplSrcB m v) rest
  | 0x19, _ => .instr (.ldSrcBCf m v) rest
  | 0x1A, _ => .instr (.xorCfSrcB m v) rest
  | 0x1B, _ => .instr (.ldCfSrcB m v) rest
  | 0x1F, 4 => .instr (.callSrc m) rest
  | 0x1F, 6 => .instr (.jpSrc m) rest
  | _, _ => .illegal .sourceOp

/-- The operation byte of the destination group and what follows it (R88). -/
def decodeDest (m : Mode) (o : Byte) (rest : List Byte) : Decoded :=
  let v := lowField o
  match rowField o, v.toNat with
  | 0x02, _ => if v.getLsbD 2 then .illegal .destOp else .instr (.ldDstRr m (Pair.ofField v)) rest
  | 0x05, 4 => withImm8 (.ldDstN m) rest
  | 0x0A, _ => .instr (.ldDstR m (Reg.ofField v)) rest
  | _, _ => .illegal .destOp

/-- A 16-bit operation of the register prefix: the pair gg = g, legal only when g < 4 (R90). -/
def withPair (g : BitVec 3) (k : Pair → Decoded) : Decoded :=
  if g.getLsbD 2 then .illegal .pairOperand else k (Pair.ofField g)

/-- The operation byte of the register prefix and what follows it (R89, R90). -/
def decodeRegister (gf : BitVec 3) (o : Byte) (rest : List Byte) : Decoded :=
  let v := lowField o
  let g := Reg.ofField gf
  match rowField o, v.toNat with
  | 0x00, 1 => .instr (.swapG g) rest
  | 0x00, 2 => withPair gf fun gg => .instr (.mulGg gg) rest
  | 0x00, 3 => withPair gf fun gg => .instr (.divGgC gg) rest
  | 0x00, 4 => if gf = 0 then .instr .retn rest else .illegal .retnOperand
  | 0x00, 6 => withPair gf fun gg => .instr (.popGg gg) rest
  | 0x00, 7 => withPair gf fun gg => .instr (.pushGg gg) rest
  | 0x01, 2 => .instr (.daaG g) rest
  | 0x01, 3 => .instr (.dasG g) rest
  | 0x02, _ => withPair gf fun gg =>
      .instr (if v.getLsbD 2 then .ldRrGg (Pair.ofField v) gg else .xchRrGg (Pair.ofField v) gg) rest
  | 0x03, 4 => .instr (.shlcG g) rest
  | 0x03, 5 => .instr (.shrcG g) rest
  | 0x03, 6 => .instr (.rolcG g) rest
  | 0x03, 7 => .instr (.rorcG g) rest
  | 0x06, _ => withPair gf fun gg => .instr (aluWaGg (AluOp.ofField v) gg) rest
  | 0x07, _ => withPair gf fun gg => withImm16 (aluGgMn (AluOp.ofField v) gg) rest
  | 0x08, _ => .instr (.setGB g v) rest
  | 0x09, _ => .instr (.clrGB g v) rest
  | 0x0B, _ => .instr (.ldRG (Reg.ofField v) g) rest
  | 0x0C, _ => .instr (aluAG (AluOp.ofField v) g) rest
  | 0x0D, _ => .instr (aluGA (AluOp.ofField v) g) rest
  | 0x0E, _ => withImm8 (aluGN (AluOp.ofField v) g) rest
  | 0x10, 2 | 0x10, 3 => .instr (.setPpG (pointerOfField v) g) rest
  | 0x11, 2 | 0x11, 3 => .instr (.clrPpG (pointerOfField v) g) rest
  | 0x12, 2 | 0x12, 3 => .instr (.cplPpG (pointerOfField v) g) rest
  | 0x13, 2 | 0x13, 3 => .instr (.ldPpGCf (pointerOfField v) g) rest
  | 0x13, 6 | 0x13, 7 => .instr (.ldCfPpG (pointerOfField v) g) rest
  | 0x15, _ => .instr (.xchRG (Reg.ofField v) g) rest
  | 0x18, _ => .instr (.cplGB g v) rest
  | 0x19, _ => .instr (.ldGBCf g v) rest
  | 0x1A, _ => .instr (.xorCfGB g v) rest
  | 0x1B, _ => .instr (.ldCfGB g v) rest
  | 0x1F, 2 => withPair gf fun gg => .instr (.ldSpGg gg) rest
  | 0x1F, 3 => withPair gf fun gg => .instr (.ldGgSp gg) rest
  | 0x1F, 4 => withPair gf fun gg => .instr (.callGg gg) rest
  | 0x1F, 6 => withPair gf fun gg => .instr (.jpGg gg) rest
  | _, _ => .illegal .registerOp

/-- The operation byte of the control-transfer group and what follows it (R91). -/
def decodeControl (o : Byte) (rest : List Byte) : Decoded :=
  match o.toNat with
  | 0xFA => withImm16 .ldSpMn rest
  | 0xFC => withImm16 .callMn rest
  | 0xFD => withImm8 .callp rest
  | 0xFE => withImm16 .jpMn rest
  | 0xFF => .instr .swi rest
  | _ => .illegal .controlOp

/-- The bytes after a prefix whose next byte is the operation byte. -/
def withOp (k : Byte → List Byte → Decoded) : List Byte → Decoded
  | [] => .more
  | o :: rest => k o rest

/-- The bytes after a source or destination prefix: the extension byte of mode m (x for m = 0, d for m = 4, none
otherwise; R78), then the operation byte. -/
def withMode (m : BitVec 3) (k : Mode → Byte → List Byte → Decoded) (bytes : List Byte) : Decoded :=
  match m.toNat, bytes with
  | 0, x :: rest => withOp (k (.direct x)) rest
  | 0, [] => .more
  | 1, bytes => withOp (k .pcA) bytes
  | 2, bytes => withOp (k .de) bytes
  | 3, bytes => withOp (k .hl) bytes
  | 4, d :: rest => withOp (k (.hlDisp d)) rest
  | 4, [] => .more
  | 5, bytes => withOp (k .hlC) bytes
  | 6, bytes => withOp (k .hlInc) bytes
  | _, bytes => withOp (k .hlDec) bytes

/-- The decoder (R73, R92, R94): what the bytes `bytes`, the first at the lowest address, begin with. -/
def decode : List Byte → Decoded
  | [] => .more
  | b0 :: rest =>
    match rowField b0 with
    | 0x1C => withMode (lowField b0) decodeSource rest
    | 0x1D => withOp (decodeRegister (lowField b0)) rest
    | 0x1E => withMode (lowField b0) decodeDest rest
    | 0x1F =>
      match (lowField b0).toNat with
      | 3 => withImm8 .jr rest
      | 7 => withOp decodeControl rest
      | _ => .illegal .firstByte
    | _ => decodeSingle b0 rest

/-! ## The encoder -/

/-- The number of a mode, in the low bits of a source or destination prefix (R78). -/
def Mode.code : Mode → Byte
  | .direct _ => 0 | .pcA => 1 | .de => 2 | .hl => 3 | .hlDisp _ => 4 | .hlC => 5 | .hlInc => 6 | .hlDec => 7

/-- The extension bytes of a mode (R78). -/
def Mode.ext : Mode → List Byte
  | .direct x => [x]
  | .hlDisp d => [d]
  | .pcA | .de | .hl | .hlC | .hlInc | .hlDec => []

/-- A source-addressed instruction (R87). -/
def srcBytes (m : Mode) (o : Byte) (imm : List Byte) : List Byte := (0xE0 ||| m.code) :: (m.ext ++ o :: imm)

/-- A destination-addressed instruction (R88). -/
def dstBytes (m : Mode) (o : Byte) (imm : List Byte) : List Byte := (0xF0 ||| m.code) :: (m.ext ++ o :: imm)

/-- A register-prefix instruction (R89). -/
def regBytes (g o : Byte) (imm : List Byte) : List Byte := (0xE8 ||| g) :: o :: imm

/-- The bytes of an instruction, the first at the lowest address (R86 to R91). -/
def encode : Instr → List Byte
  | .nop => [0x00]
  | .swapA => [0x01]
  | .mulWA => [0x02]
  | .divWaC => [0x03]
  | .reti => [0x04]
  | .ret => [0x05]
  | .popPsw => [0x06]
  | .pushPsw => [0x07]
  | .daaA => [0x0A]
  | .dasA => [0x0B]
  | .clrCf => [0x0C]
  | .setCf => [0x0D]
  | .cplCf => [0x0E]
  | .ldRbsN n => [0x0F, n]
  | .incRr rr => [0x10 ||| rr.code]
  | .ldRrMn rr mn => [0x14 ||| rr.code, loByte mn, hiByte mn]
  | .decRr rr => [0x18 ||| rr.code]
  | .shlcA => [0x1C]
  | .shrcA => [0x1D]
  | .rolcA => [0x1E]
  | .rorcA => [0x1F]
  | .incX x => [0x20, x]
  | .incHl => [0x21]
  | .ldAX x => [0x22, x]
  | .ldAHl => [0x23]
  | .ldwXMn x mn => [0x24, x, loByte mn, hiByte mn]
  | .ldwHlMn mn => [0x25, loByte mn, hiByte mn]
  | .ldXY x y => [0x26, y, x]
  | .decX x => [0x28, x]
  | .decHl => [0x29]
  | .ldXA x => [0x2A, x]
  | .ldHlA => [0x2B]
  | .ldXN x n => [0x2C, x, n]
  | .ldHlN n => [0x2D, n]
  | .clrX x => [0x2E, x]
  | .clrHl => [0x2F]
  | .ldRN r n => [0x30 ||| r.code, n]
  | .setXB x b => [0x40 ||| bitCode b, x]
  | .clrXB x b => [0x48 ||| bitCode b, x]
  | .ldAR r => [0x50 ||| r.code]
  | .ldRA r => [0x58 ||| r.code]
  | .incR r => [0x60 ||| r.code]
  | .decR r => [0x68 ||| r.code]
  | .addcAN n => [0x70, n]
  | .addAN n => [0x71, n]
  | .subbAN n => [0x72, n]
  | .subAN n => [0x73, n]
  | .andAN n => [0x74, n]
  | .xorAN n => [0x75, n]
  | .orAN n => [0x76, n]
  | .cmpAN n => [0x77, n]
  | .addcAX x => [0x78, x]
  | .addAX x => [0x79, x]
  | .subbAX x => [0x7A, x]
  | .subAX x => [0x7B, x]
  | .andAX x => [0x7C, x]
  | .xorAX x => [0x7D, x]
  | .orAX x => [0x7E, x]
  | .cmpAX x => [0x7F, x]
  | .jrsT d5 => [0x80 ||| d5.setWidth 8]
  | .jrsF d5 => [0xA0 ||| d5.setWidth 8]
  | .callv v4 => [0xC0 ||| v4.setWidth 8]
  | .jrCc cc d => [0xD0 ||| cc.code, d]
  | .ldCfXB x b => [0xD8 ||| bitCode b, x]
  | .jr d => [0xFB, d]
  | .roldASrc m => srcBytes m (0x08) []
  | .rordASrc m => srcBytes m (0x09) []
  | .ldRrSrc rr m => srcBytes m (0x14 ||| rr.code) []
  | .incSrc m => srcBytes m (0x20) []
  | .ldXSrc x m => srcBytes m (0x26) [x]
  | .ldHlSrc m => srcBytes m (0x27) []
  | .decSrc m => srcBytes m (0x28) []
  | .mcmpSrcN m n => srcBytes m (0x2F) [n]
  | .setSrcB m b => srcBytes m (0x40 ||| bitCode b) []
  | .clrSrcB m b => srcBytes m (0x48 ||| bitCode b) []
  | .testSrcB m b => srcBytes m (0x50 ||| bitCode b) []
  | .ldRSrc r m => srcBytes m (0x58 ||| r.code) []
  | .addcSrcHl m => srcBytes m (0x60) []
  | .addSrcHl m => srcBytes m (0x61) []
  | .subbSrcHl m => srcBytes m (0x62) []
  | .subSrcHl m => srcBytes m (0x63) []
  | .andSrcHl m => srcBytes m (0x64) []
  | .xorSrcHl m => srcBytes m (0x65) []
  | .orSrcHl m => srcBytes m (0x66) []
  | .cmpSrcHl m => srcBytes m (0x67) []
  | .addcSrcN m n => srcBytes m (0x68) [n]
  | .addSrcN m n => srcBytes m (0x69) [n]
  | .subbSrcN m n => srcBytes m (0x6A) [n]
  | .subSrcN m n => srcBytes m (0x6B) [n]
  | .andSrcN m n => srcBytes m (0x6C) [n]
  | .xorSrcN m n => srcBytes m (0x6D) [n]
  | .orSrcN m n => srcBytes m (0x6E) [n]
  | .cmpSrcN m n => srcBytes m (0x6F) [n]
  | .addcASrc m => srcBytes m (0x78) []
  | .addASrc m => srcBytes m (0x79) []
  | .subbASrc m => srcBytes m (0x7A) []
  | .subASrc m => srcBytes m (0x7B) []
  | .andASrc m => srcBytes m (0x7C) []
  | .xorASrc m => srcBytes m (0x7D) []
  | .orASrc m => srcBytes m (0x7E) []
  | .cmpASrc m => srcBytes m (0x7F) []
  | .xchRSrc r m => srcBytes m (0xA8 ||| r.code) []
  | .cplSrcB m b => srcBytes m (0xC0 ||| bitCode b) []
  | .ldSrcBCf m b => srcBytes m (0xC8 ||| bitCode b) []
  | .xorCfSrcB m b => srcBytes m (0xD0 ||| bitCode b) []
  | .ldCfSrcB m b => srcBytes m (0xD8 ||| bitCode b) []
  | .callSrc m => srcBytes m (0xFC) []
  | .jpSrc m => srcBytes m (0xFE) []
  | .ldDstRr m rr => dstBytes m (0x10 ||| rr.code) []
  | .ldDstN m n => dstBytes m (0x2C) [n]
  | .ldDstR m r => dstBytes m (0x50 ||| r.code) []
  | .swapG g => regBytes g.code (0x01) []
  | .mulGg gg => regBytes gg.code (0x02) []
  | .divGgC gg => regBytes gg.code (0x03) []
  | .retn => regBytes 0 (0x04) []
  | .popGg gg => regBytes gg.code (0x06) []
  | .pushGg gg => regBytes gg.code (0x07) []
  | .daaG g => regBytes g.code (0x0A) []
  | .dasG g => regBytes g.code (0x0B) []
  | .xchRrGg rr gg => regBytes gg.code (0x10 ||| rr.code) []
  | .ldRrGg rr gg => regBytes gg.code (0x14 ||| rr.code) []
  | .shlcG g => regBytes g.code (0x1C) []
  | .shrcG g => regBytes g.code (0x1D) []
  | .rolcG g => regBytes g.code (0x1E) []
  | .rorcG g => regBytes g.code (0x1F) []
  | .addcWaGg gg => regBytes gg.code (0x30) []
  | .addWaGg gg => regBytes gg.code (0x31) []
  | .subbWaGg gg => regBytes gg.code (0x32) []
  | .subWaGg gg => regBytes gg.code (0x33) []
  | .andWaGg gg => regBytes gg.code (0x34) []
  | .xorWaGg gg => regBytes gg.code (0x35) []
  | .orWaGg gg => regBytes gg.code (0x36) []
  | .cmpWaGg gg => regBytes gg.code (0x37) []
  | .addcGgMn gg mn => regBytes gg.code (0x38) [loByte mn, hiByte mn]
  | .addGgMn gg mn => regBytes gg.code (0x39) [loByte mn, hiByte mn]
  | .subbGgMn gg mn => regBytes gg.code (0x3A) [loByte mn, hiByte mn]
  | .subGgMn gg mn => regBytes gg.code (0x3B) [loByte mn, hiByte mn]
  | .andGgMn gg mn => regBytes gg.code (0x3C) [loByte mn, hiByte mn]
  | .xorGgMn gg mn => regBytes gg.code (0x3D) [loByte mn, hiByte mn]
  | .orGgMn gg mn => regBytes gg.code (0x3E) [loByte mn, hiByte mn]
  | .cmpGgMn gg mn => regBytes gg.code (0x3F) [loByte mn, hiByte mn]
  | .setGB g b => regBytes g.code (0x40 ||| bitCode b) []
  | .clrGB g b => regBytes g.code (0x48 ||| bitCode b) []
  | .ldRG r g => regBytes g.code (0x58 ||| r.code) []
  | .addcAG g => regBytes g.code (0x60) []
  | .addAG g => regBytes g.code (0x61) []
  | .subbAG g => regBytes g.code (0x62) []
  | .subAG g => regBytes g.code (0x63) []
  | .andAG g => regBytes g.code (0x64) []
  | .xorAG g => regBytes g.code (0x65) []
  | .orAG g => regBytes g.code (0x66) []
  | .cmpAG g => regBytes g.code (0x67) []
  | .addcGA g => regBytes g.code (0x68) []
  | .addGA g => regBytes g.code (0x69) []
  | .subbGA g => regBytes g.code (0x6A) []
  | .subGA g => regBytes g.code (0x6B) []
  | .andGA g => regBytes g.code (0x6C) []
  | .xorGA g => regBytes g.code (0x6D) []
  | .orGA g => regBytes g.code (0x6E) []
  | .cmpGA g => regBytes g.code (0x6F) []
  | .addcGN g n => regBytes g.code (0x70) [n]
  | .addGN g n => regBytes g.code (0x71) [n]
  | .subbGN g n => regBytes g.code (0x72) [n]
  | .subGN g n => regBytes g.code (0x73) [n]
  | .andGN g n => regBytes g.code (0x74) [n]
  | .xorGN g n => regBytes g.code (0x75) [n]
  | .orGN g n => regBytes g.code (0x76) [n]
  | .cmpGN g n => regBytes g.code (0x77) [n]
  | .setPpG pp g => regBytes g.code (0x82 ||| ptrCode pp) []
  | .clrPpG pp g => regBytes g.code (0x8A ||| ptrCode pp) []
  | .cplPpG pp g => regBytes g.code (0x92 ||| ptrCode pp) []
  | .ldPpGCf pp g => regBytes g.code (0x9A ||| ptrCode pp) []
  | .ldCfPpG pp g => regBytes g.code (0x9E ||| ptrCode pp) []
  | .xchRG r g => regBytes g.code (0xA8 ||| r.code) []
  | .cplGB g b => regBytes g.code (0xC0 ||| bitCode b) []
  | .ldGBCf g b => regBytes g.code (0xC8 ||| bitCode b) []
  | .xorCfGB g b => regBytes g.code (0xD0 ||| bitCode b) []
  | .ldCfGB g b => regBytes g.code (0xD8 ||| bitCode b) []
  | .ldSpGg gg => regBytes gg.code (0xFA) []
  | .ldGgSp gg => regBytes gg.code (0xFB) []
  | .callGg gg => regBytes gg.code (0xFC) []
  | .jpGg gg => regBytes gg.code (0xFE) []
  | .ldSpMn mn => [0xFF, 0xFA, loByte mn, hiByte mn]
  | .callMn mn => [0xFF, 0xFC, loByte mn, hiByte mn]
  | .callp n => [0xFF, 0xFD, n]
  | .jpMn mn => [0xFF, 0xFE, loByte mn, hiByte mn]
  | .swi => [0xFF, 0xFF]

/-! ## Words numbered as spec/opcode_table.json numbers them -/

/-- The last k bytes of w, the most significant first: the table reads the bytes of a row's key as one number, its
first byte the most significant. -/
def keyBytes (w : Nat) : Nat → List Byte
  | 0 => []
  | k + 1 => BitVec.ofNat 8 (w >>> (8 * k)) :: keyBytes w k

/-- The bytes of the instruction whose key is w: the table leaves the extension byte of a source or destination
prefix with m = 0 or m = 4 out of the key, and every byte the key does not give is 0. Four bytes, the longest
instruction (R94). -/
def keyLayout (nbits w : Nat) : List Byte :=
  let bytes :=
    match keyBytes w ((nbits + 7) / 8) with
    | b0 :: o :: rest =>
      if b0 = 0xE0 ∨ b0 = 0xE4 ∨ b0 = 0xF0 ∨ b0 = 0xF4 then b0 :: 0 :: o :: rest else b0 :: o :: rest
    | short => short
  (bytes ++ [0, 0, 0, 0]).take 4

/-- The instruction the decoder reads from a word numbered as spec/opcode_table.json numbers it. -/
def decodeTableWord (nbits w : Nat) : Option Instr :=
  match decode (keyLayout nbits w) with
  | .instr i _ => some i
  | .more => none
  | .illegal _ => none

end Sys2Proof
end

