-- ==== Sys2Proof/Config.lean ====
section
/-! DEFINITION. What the spec leaves to the implementation: the parameters of spec/00_scope.md R9 as plain data,
and the values it leaves open as constants without a body, of which nothing can be proved. -/

namespace Sys2Proof

/-- `PSW_LOW_NIBBLE` (R9, R28, R29). -/
inductive PswLow
  /-- Bits 3..0 read 0 and writes to them are ignored. -/
  | zero
  /-- Bits 3..0 are the bank selector. -/
  | rbs
  deriving DecidableEq, Repr

/-- `VECTOR_MODE` (R9, R239). -/
inductive VectorMode
  /-- PC is loaded with the word at the vector address. -/
  | indirect
  /-- PC becomes the vector address. -/
  | direct
  deriving DecidableEq, Repr

/-- The parameters of R9. `vecIrq` lists `VEC_IRQ(0)`, `VEC_IRQ(1)`, ..., so that `N_IRQ` is its length. `NBANK` is
16 (R21, I5). `OPCODE_MAP` is the default map of 30_encoding.md (log 7). -/
structure Params where
  /-- `BANK_ALIAS`: none, or the base address B of the bank storage in memory (R23). -/
  bankAlias : Option Word
  /-- `PSW_LOW_NIBBLE` (R28, R29). -/
  pswLow : PswLow
  /-- `VECTOR_MODE` (R239). -/
  vectorMode : VectorMode
  /-- `VEC_RESET` (R252). -/
  vecReset : Word
  /-- `VEC_SWI` (R232). -/
  vecSwi : Word
  /-- `VEC_NMI` (R240). -/
  vecNmi : Word
  /-- `VEC_IRQ(k)` for each maskable line k (R241). -/
  vecIrq : List Word
  /-- `CALLV_BASE` (R227). -/
  callvBase : Word
  /-- `CALLP_PAGE` (R228). -/
  callpPage : Byte
  /-- `IMF_ALIAS`: none, or the address and the bit that mirror IMF (R243). -/
  imfAlias : Option (Word × BitVec 3)
  /-- `ROTATE_THROUGH_CARRY` (R174). -/
  rotateThroughCarry : Bool
  deriving DecidableEq, Repr

/-- The defaults of R9. -/
def Params.default : Params where
  bankAlias := none
  pswLow := .zero
  vectorMode := .indirect
  vecReset := 0xFFFE
  vecSwi := 0xFFFC
  vecNmi := 0xFFFA
  vecIrq := [0xFFF8, 0xFFF6, 0xFFF4, 0xFFF2, 0xFFF0, 0xFFEE, 0xFFEC, 0xFFEA, 0xFFE8, 0xFFE6, 0xFFE4, 0xFFE2]
  callvBase := 0xFFC0
  callpPage := 0xFF
  imfAlias := none
  rotateThroughCarry := false

/-- DESIGN CHOICE (unsafe, log 4): what a byte of memory that nothing has written reads as. The spec gives memory no
reset contents (R37). -/
def Config.unlistedByte : Byte := 0x00

/-- A free byte: the k-th draw, where it is a byte that DIV leaves open (`DIV_DRAW`, R9, R165, I1, I2; log 9). -/
opaque Config.drawByte : Nat → Byte

/-- A free bit: the k-th draw, where it is the ZF that DIV leaves open (`DIV_DRAW`, R9, R165, I1, I2; log 9). -/
opaque Config.drawBit : Nat → Bool

/-- A free byte: the k-th draw, where it is the platform's answer to a read that no plain memory serves (R63, I9,
I19; log 10). -/
opaque Config.busAnswer : Nat → Byte

/-- `CYCLES` of an instruction (R9, R258; log 8). -/
opaque Config.cyclesInstr : Instr → Nat

/-- `CYCLES` of the acceptance of the non-maskable request (R240; log 8). -/
opaque Config.cyclesNmi : Nat

/-- `CYCLES` of the acceptance of maskable line k (R241; log 8). -/
opaque Config.cyclesIrq : Nat → Nat

/-- `CYCLES` of an illegal opcode (R235; log 8). -/
opaque Config.cyclesIllegal : Nat

end Sys2Proof
end

