-- ==== Sys2Proof/Machine/State.lean ====
section
/-! DEFINITION. The state of the core as plain data, the reasons a step can stop, and the state after reset
(spec/10_state.md, spec/70_reset_and_hazards.md). -/

namespace Sys2Proof.Machine

/-- One bank of the register file: its eight registers (R20, R21). -/
structure Bank where
  a : Byte
  w : Byte
  c : Byte
  b : Byte
  e : Byte
  d : Byte
  l : Byte
  h : Byte
  deriving DecidableEq, Repr

/-- The four flags of the program status word (R27). -/
structure Flags where
  /-- JF, jump/skip: PSW bit 7. -/
  jf : Bool
  /-- ZF, zero: PSW bit 6. -/
  zf : Bool
  /-- CF, carry: PSW bit 5. -/
  cf : Bool
  /-- HF, half-carry: PSW bit 4. -/
  hf : Bool
  deriving DecidableEq, Repr

/-- Memory (R50): the bytes that differ from `Config.unlistedByte`, in rising order of address. -/
abbrev Memory := List Host.Cell

/-- The canonical form of a memory: addresses below 65536 (R50) and strictly rising, and no entry equal to what an
unlisted address reads as. -/
abbrev Memory.wf (m : Memory) : Prop :=
  m.Pairwise (fun p q => p.1 < q.1) ∧ ∀ p ∈ m, p.1 < 65536 ∧ p.2 ≠ Config.unlistedByte

/-- What the platform presents at one instruction boundary (R33, R237, R243, R252). -/
structure Inputs where
  /-- The reset input (R252). -/
  reset : Bool
  /-- The value of a pending `imf_write` (R243). -/
  imfWrite : Option Byte
  /-- The level of the non-maskable line (R237). -/
  nmi : Bool
  /-- The levels of the maskable lines, line 0 first, after the external controller's mask (R33). A line past the
  end of the list is low. -/
  irq : List Bool
  deriving DecidableEq, Repr

/-- Nothing asserted. -/
def Inputs.quiet : Inputs where
  reset := false
  imfWrite := none
  nmi := false
  irq := []

/-- One bus access (R51): `readByte` with the byte answered, or `writeByte`. -/
inductive BusAccess
  | read (a : Word) (v : Byte)
  | write (a : Word) (v : Byte)
  deriving DecidableEq, Repr

/-- What a step reports (R35). -/
inductive Event
  /-- `Executed(mnemonic)`: the instruction, whose mnemonic is `Instr.mnemonic`. -/
  | executed (i : Instr)
  /-- `Accepted(NMI)` (R240). -/
  | acceptedNmi
  /-- `Accepted(IRQ k)` (R241). -/
  | acceptedIrq (k : Nat)
  /-- `Illegal(bytes)` (R235), the consumed bytes in the order of their addresses. -/
  | illegal (bytes : List Byte)
  deriving DecidableEq, Repr

/-- The state of the core, of the memory it sees and of its inputs. -/
structure State where
  /-- `bank[n][i]`, the 16 register banks (R21). Unused where `BANK_ALIAS` puts them into memory (R23). -/
  bank : Vector Bank 16
  /-- RBS, the register bank select (R21). -/
  rbs : BitVec 4
  /-- PC, the program counter (R26). -/
  pc : Word
  /-- SP, the stack pointer (R30). -/
  sp : Word
  /-- JF, ZF, CF, HF (R27). -/
  flags : Flags
  /-- IMF, the interrupt master enable (R31). -/
  imf : Bool
  /-- NMIP, the non-maskable request latch (R32). -/
  nmip : Bool
  /-- NMIL, the previous level of the non-maskable input (R32). -/
  nmil : Bool
  /-- The memory of the platform (R50, R51). -/
  mem : Memory
  /-- The addresses that no plain memory serves: a platform device answers there, or nothing at all (R63, I9, I19;
  log 10). -/
  io : List Nat
  /-- The parameters of R9, which no step changes (log 6). -/
  params : Params
  /-- What the platform presents at the coming boundary (log 11). -/
  inputs : Inputs
  /-- What it presents at the boundaries after that, oldest first (log 11). -/
  later : List Inputs
  /-- `start`, the address of the first byte of the instruction being executed (R11, R14; log 18). -/
  start : Word
  /-- How many free values have been drawn (R11; log 9). -/
  draws : Nat
  /-- The bus accesses of the last step, in order (R62; log 15). -/
  bus : List BusAccess
  /-- The acknowledge output of the last step (R242). -/
  ack : Option Nat
  /-- The events reported so far, newest first (R35). -/
  events : List Event
  deriving DecidableEq, Repr

/-- The reasons a step can stop with a fault. The core itself raises no synchronous exception (R234). -/
inductive Fault
  /-- The model fault of R37, R234 and I8: a register, flag or SP is read that holds no value since reset. Raised by
  nobody here, since every register holds a value at reset (log 1, 2, 3, 20). That is unsafe: a program that reads a
  register it has not written is outside the spec, and runs here. -/
  | unprogrammedRead
  deriving DecidableEq, Repr

/-- The reasons a step can refuse. -/
inductive Refusal
  /-- Raised by an arm of `exec` whose instruction has no meaning yet; safe. Every arm has one, so nobody raises
  it. -/
  | notModelled (mnemonic : String)
  deriving DecidableEq, Repr

/-- What a meaning answers. -/
abbrev Result := Host.Outcome State Fault Refusal

/-- A bank that holds 0 in every register. -/
def Bank.zero : Bank where
  a := 0
  w := 0
  c := 0
  b := 0
  e := 0
  d := 0
  l := 0
  h := 0

/-- The machine right after reset (R37, R252), with nothing in memory, no device and nothing asserted. DESIGN
CHOICE (unsafe): the registers (log 1), SP (log 2) and the flags (log 3), which the spec leaves without a value, hold
0. PC is the word at VEC_RESET, read from a memory in which every byte reads 0x00 (log 4, log 5). -/
def State.reset : State where
  bank := Vector.replicate 16 Bank.zero
  rbs := 0
  pc := 0
  sp := 0
  flags := { jf := false, zf := false, cf := false, hf := false }
  imf := false
  nmip := false
  nmil := false
  mem := []
  io := []
  params := Params.default
  inputs := Inputs.quiet
  later := []
  start := 0
  draws := 0
  bus := []
  ack := none
  events := []

end Sys2Proof.Machine
end

