-- ==== Sys2Proof/Machine/Ops.lean ====
section
/-! DEFINITION. The named operations over memory, registers, the program status word, the stack and the inputs, and
the entry into and the return from an interrupt (spec/10_state.md, spec/20_memory.md, spec/60_exceptions.md). -/

namespace Sys2Proof.Machine

/-! ## Widths (R11) -/

/-- `zext_16` of a byte. -/
def zext16 (v : Byte) : Word := v.setWidth 16

/-- `sext_16` of a byte. -/
def sext16 (v : Byte) : Word := v.signExtend 16

/-! ## Memory as a list of cells -/

/-- The byte at an address; an address that is not listed reads `Config.unlistedByte`. -/
def Memory.read : Memory → Nat → Byte
  | [], _ => Config.unlistedByte
  | (k, v) :: rest, a => if a = k then v else Memory.read rest a

/-- The memory without an entry for the address. -/
def Memory.erase : Memory → Nat → Memory
  | [], _ => []
  | (k, v) :: rest, a => if a = k then Memory.erase rest a else (k, v) :: Memory.erase rest a

/-- The memory with an entry added before the first higher address. -/
def Memory.insert : Memory → Nat → Byte → Memory
  | [], a, v => [(a, v)]
  | (k, w) :: rest, a, v => if a < k then (a, v) :: (k, w) :: rest else (k, w) :: Memory.insert rest a v

/-- The memory after a write: the canonical form lists no byte that an unlisted address would read as. -/
def Memory.write (m : Memory) (a : Nat) (v : Byte) : Memory :=
  if v = Config.unlistedByte then m.erase a else (m.erase a).insert a v

/-! ## Bus accesses (R51 to R56, R62, R63) -/

/-- The byte that plain memory holds at an address: the raw accessor of R36, no bus access. -/
def State.peek (s : State) (a : Word) : Byte := s.mem.read a.toNat

/-- The address is one of the 128 bytes of the bank storage where `BANK_ALIAS` puts it into memory (R23). -/
def bankByte (p : Params) (a : Word) : Bool :=
  match p.bankAlias with
  | none => false
  | some base => decide ((a - base).toNat < 128)

/-- A platform device, or nothing, answers at the address (R63, I9, I19). A byte of the bank storage is on chip and is
always plain memory (log 14). -/
def State.served (s : State) (a : Word) : Bool := s.io.contains a.toNat && !bankByte s.params a

/-- `MemRead(a, 1)` (R51, R62, R63): one bus access. Where no plain memory serves the address the byte is a free
value (log 10). -/
def State.memRead (s : State) (a : Word) : Byte × State :=
  if s.served a then
    (Config.busAnswer s.draws,
      { s with draws := s.draws + 1, bus := s.bus ++ [.read a (Config.busAnswer s.draws)] })
  else (s.peek a, { s with bus := s.bus ++ [.read a (s.peek a)] })

/-- The mirror of a memory bit in IMF where `IMF_ALIAS` names one (R243). -/
def State.mirrorImf (s : State) (a : Word) (v : Byte) : State :=
  match s.params.imfAlias with
  | none => s
  | some (addr, k) => if a = addr then { s with imf := v.getLsbD k.toNat } else s

/-- `MemWrite(a, 1, v)` (R51, R62, R63, R243): one bus access. Plain memory keeps the byte; a device takes it. -/
def State.memWrite (s : State) (a : Word) (v : Byte) : State :=
  let stored := if s.served a then s else { s with mem := s.mem.write a.toNat v }
  let logged : State := { stored with bus := stored.bus ++ [.write a v] }
  logged.mirrorImf a v

/-- `MemRead(a, 2)`: the low byte at a first, then the high byte at a + 1 (R52). -/
def State.memRead16 (s : State) (a : Word) : Word × State :=
  let lo := s.memRead a
  let hi := lo.2.memRead (a + 1)
  (joinBytes lo.1 hi.1, hi.2)

/-- `MemWrite(a, 2, v)`: the low byte to a first, then the high byte to a + 1 (R52). -/
def State.memWrite16 (s : State) (a : Word) (v : Word) : State :=
  (s.memWrite a (loByte v)).memWrite (a + 1) (hiByte v)

/-! ## Registers (R20 to R24) -/

/-- Register r of a bank. -/
def Bank.get (k : Bank) : Reg → Byte
  | .a => k.a | .w => k.w | .c => k.c | .b => k.b | .e => k.e | .d => k.d | .l => k.l | .h => k.h

/-- A bank with register r written. -/
def Bank.set (k : Bank) (r : Reg) (v : Byte) : Bank :=
  match r with
  | .a => { k with a := v }
  | .w => { k with w := v }
  | .c => { k with c := v }
  | .b => { k with b := v }
  | .e => { k with e := v }
  | .d => { k with d := v }
  | .l => { k with l := v }
  | .h => { k with h := v }

/-- The memory byte that is `bank[n][i]` where `BANK_ALIAS` is the address `base`: base + 8n + i (R23). -/
def bankAddr (base : Word) (n : BitVec 4) (r : Reg) : Word := base + 8 * n.setWidth 16 + r.code.setWidth 16

/-- `bank[n][r]` (R21, R23, R36). -/
def State.bankReg (s : State) (n : BitVec 4) (r : Reg) : Byte :=
  match s.params.bankAlias with
  | none => (s.bank.get n.toFin).get r
  | some base => s.peek (bankAddr base n r)

/-- `bank[n][r] <- v` (R21, R23). -/
def State.setBankReg (s : State) (n : BitVec 4) (r : Reg) (v : Byte) : State :=
  match s.params.bankAlias with
  | none => { s with bank := s.bank.set n.toNat ((s.bank.get n.toFin).set r v) n.isLt }
  | some base => { s with mem := s.mem.write (bankAddr base n r).toNat v }

/-- `x[r]`: the register of the current bank (R22). -/
def State.reg (s : State) (r : Reg) : Byte := s.bankReg s.rbs r

/-- `x[r] <- v` (R22). -/
def State.setReg (s : State) (r : Reg) (v : Byte) : State := s.setBankReg s.rbs r v

/-- `xx[p]` (R24). -/
def State.pair (s : State) (p : Pair) : Word := joinBytes (s.reg p.lo) (s.reg p.hi)

/-- `xx[p] <- v`: the low register, then the high register (R24). -/
def State.setPair (s : State) (p : Pair) (v : Word) : State :=
  (s.setReg p.lo (loByte v)).setReg p.hi (hiByte v)

/-! ## The program status word (R28, R29) -/

/-- `getPSW()` (R28). -/
def State.getPsw (s : State) : Byte :=
  let low : BitVec 4 :=
    match s.params.pswLow with
    | .zero => 0
    | .rbs => s.rbs
  BitVec.ofBool s.flags.jf ++ BitVec.ofBool s.flags.zf ++ BitVec.ofBool s.flags.cf ++ BitVec.ofBool s.flags.hf ++ low

/-- `setPSW(v)` (R29). -/
def State.setPsw (s : State) (v : Byte) : State :=
  let s1 := { s with flags := { jf := v.getLsbD 7, zf := v.getLsbD 6, cf := v.getLsbD 5, hf := v.getLsbD 4 } }
  match s.params.pswLow with
  | .zero => s1
  | .rbs => { s1 with rbs := v.setWidth 4 }

/-! ## The stack (R57 to R60) -/

/-- `push8(v)`: decrement, then store (R57). -/
def State.push8 (s : State) (v : Byte) : State :=
  let lowered : State := { s with sp := s.sp - 1 }
  lowered.memWrite (s.sp - 1) v

/-- `pop8()`: load, then increment (R58). -/
def State.pop8 (s : State) : Byte × State :=
  let v := s.memRead s.sp
  (v.1, { v.2 with sp := s.sp + 1 })

/-- `push16(v)`: the high byte, then the low byte (R59). -/
def State.push16 (s : State) (v : Word) : State := (s.push8 (hiByte v)).push8 (loByte v)

/-- `pop16()`: the low byte, then the high byte (R60). -/
def State.pop16 (s : State) : Word × State :=
  let lo := s.pop8
  let hi := lo.2.pop8
  (joinBytes lo.1 hi.1, hi.2)

/-! ## Free values (R11 `draw()`) -/

/-- A draw of a byte: the value is free (log 9). -/
def State.drawByte (s : State) : Byte × State :=
  (Config.drawByte s.draws, { s with draws := s.draws + 1 })

/-- A draw of a bit: the value is free (log 9). -/
def State.drawBit (s : State) : Bool × State :=
  (Config.drawBit s.draws, { s with draws := s.draws + 1 })

/-! ## Interrupt entry and return (R239 to R244) -/

/-- PC loaded through a vector address (R239, R252): the word there, or the address itself. -/
def State.loadVector (s : State) (v : Word) : State :=
  match s.params.vectorMode with
  | .indirect =>
    let target := s.memRead16 v
    { target.2 with pc := target.1 }
  | .direct => { s with pc := v }

/-- `enter(v)` (R239): push PC and PSW, clear JF and IMF, go to the vector. -/
def State.enter (s : State) (v : Word) : State :=
  let framed := (s.push16 s.pc).push8 (s.push16 s.pc).getPsw
  let masked : State := { framed with flags := { framed.flags with jf := false }, imf := false }
  masked.loadVector v

/-- The return from the frame of R61, common to RETI and RETN: pop PSW, then PC (R230, R231). -/
def State.leave (s : State) : State :=
  let psw := s.pop8
  let target := (psw.2.setPsw psw.1).pop16
  { target.2 with pc := target.1 }

/-- Accepting the non-maskable request (R240). -/
def State.acceptNmi (s : State) : State :=
  let taken : State := { s with nmip := false }
  let entered := taken.enter s.params.vecNmi
  { entered with events := .acceptedNmi :: entered.events }

/-- Accepting maskable line k, whose vector is v (R241, R242): the acknowledge is raised before the frame is
pushed. -/
def State.acceptIrq (s : State) (k : Nat) (v : Word) : State :=
  let acked : State := { s with ack := some k }
  let entered := acked.enter v
  { entered with events := .acceptedIrq k :: entered.events }

/-- The lowest asserted line among those that exist, with its vector (R238): the levels and the vectors from line k
on. -/
def lowestIrq : List Bool → List Word → Nat → Option (Nat × Word)
  | true :: _, v :: _, k => some (k, v)
  | false :: levels, _ :: vectors, k => lowestIrq levels vectors (k + 1)
  | _, _, _ => none

/-! ## The instruction boundary (R237, R243, R252) -/

/-- The reset sequence (R252): RBS, IMF and NMIP are cleared, NMIL takes the level of the non-maskable input, PC is
loaded through VEC_RESET. Memory, the inputs and the parameters stay. SP, the flags and, where `BANK_ALIAS` is none,
the registers take the values of `State.reset` (DESIGN CHOICE, unsafe, log 12). With `BANK_ALIAS = B` the registers are
bytes of memory (R23), which R252 does not reset: every register keeps its byte over a reset during a run, and `bank`,
which no access reads then, is cleared (DESIGN CHOICE, unsafe, log 23). The level that NMIL takes is the one that the
sampling of the same boundary reads: the line does not change in between (DESIGN CHOICE, unsafe, log 24). -/
def State.resetSequence (s : State) : State :=
  let cleared : State :=
    { s with
      bank := State.reset.bank
      rbs := 0
      sp := State.reset.sp
      flags := State.reset.flags
      imf := false
      nmip := false
      nmil := s.inputs.nmi }
  cleared.loadVector s.params.vecReset

/-- The outputs of the step before are taken back: what `bus` and `ack` show is of one step (R242; log 15). -/
def State.beginStep (s : State) : State := { s with bus := [], ack := none }

/-- The reset input (R252): asserted between steps, it takes effect before the sampling (R253). -/
def State.applyReset (s : State) : State := if s.inputs.reset then s.resetSequence else s

/-- A pending `imf_write(v)`: IMF <- v[0] (R237, R243). -/
def State.applyImfWrite (s : State) : State :=
  match s.inputs.imfWrite with
  | none => s
  | some v => { s with imf := v.getLsbD 0 }

/-- The non-maskable level: a rising edge sets NMIP (R237). -/
def State.sampleNmi (s : State) : State :=
  { s with nmip := s.nmip || (!s.nmil && s.inputs.nmi), nmil := s.inputs.nmi }

/-- What the platform presents at the next boundary: the next entry of `later`, or, when there is none, the same
levels with nothing pending (log 11). -/
def State.advanceInputs (s : State) : State :=
  match s.later with
  | [] => { s with inputs := { s.inputs with reset := false, imfWrite := none } }
  | next :: rest => { s with inputs := next, later := rest }

/-- The start of a step (R237): the reset input, the pending `imf_write`, the non-maskable edge, in this order. The
inputs are read only here. -/
def State.boundary (s : State) : State :=
  s.beginStep.applyReset.applyImfWrite.sampleNmi.advanceInputs

/-! ## Fetch (R70, R71) -/

/-- `Fetch8()` (R70). -/
def State.fetch8 (s : State) : Byte × State :=
  let v := s.memRead s.pc
  (v.1, { v.2 with pc := s.pc + 1 })

/-- Fetch byte by byte until the bytes are an instruction or match none (R71, R92), at most `fuel` bytes more: the
bytes consumed, the instruction if there is one, and the state after the fetch. No more than the bytes of the
instruction are read. -/
def State.fetchInstr (s : State) (got : List Byte) : Nat → List Byte × Option Instr × State
  | 0 => (got, none, s)
  | fuel + 1 =>
    let next := s.fetch8
    let bytes := got ++ [next.1]
    match decode bytes with
    | .more => next.2.fetchInstr bytes fuel
    | .instr i _ => (bytes, some i, next.2)
    | .illegal _ => (bytes, none, next.2)

/-- The event of a step is recorded (R35). -/
def State.report (s : State) (e : Event) : State := { s with events := e :: s.events }

/-- The cycle count that a step returns for the event it reports (R35, R258; log 8). -/
def cyclesOf : Event → Nat
  | .executed i => Config.cyclesInstr i
  | .acceptedNmi => Config.cyclesNmi
  | .acceptedIrq k => Config.cyclesIrq k
  | .illegal _ => Config.cyclesIllegal

/-- The cycle count that the last step returned, none before the first (R35; log 8). -/
def State.reportedCycles (s : State) : Option Nat := s.events.head?.map cyclesOf

end Sys2Proof.Machine
end

