-- ==== Sys2Proof/Machine/Flags.lean ====
section
/-! DEFINITION. The results and the flags of the operations: the ALU, increment and decrement, multiply and divide,
decimal adjust, shifts and rotates, the bit operations (spec/41_alu.md, spec/42_bit.md). Each function takes the flags
before and answers the flags after, so that a flag it does not name is unchanged. -/

namespace Sys2Proof.Machine

/-- `Z(v)` (R11). -/
def isZero {w : Nat} (v : BitVec w) : Bool := decide (v = 0)

/-- The low nibble of a value, as a number (R131). -/
def nibble {w : Nat} (v : BitVec w) : Nat := v.toNat % 16

/-- The carry as a number. -/
def carryIn (c : Bool) : Nat := if c then 1 else 0

/-! ## The ALU (R131 to R140) -/

/-- a + b + c: carry out of the top bit, half-carry out of bit 3, JF the new carry (R132, R133, R140). -/
def addFlags {w : Nat} (a b : BitVec w) (c : Nat) : BitVec w × Flags :=
  let r := BitVec.ofNat w (a.toNat + b.toNat + c)
  let carry := decide (2 ^ w ≤ a.toNat + b.toNat + c)
  (r, { jf := carry, zf := isZero r, cf := carry, hf := decide (15 < nibble a + nibble b + c) })

/-- a - b - c: borrow into the top bit, half-borrow into bit 3, JF the new borrow (R134, R135, R140). -/
def subFlags {w : Nat} (a b : BitVec w) (c : Nat) : BitVec w × Flags :=
  let r := a - b - BitVec.ofNat w c
  let borrow := decide (a.toNat < b.toNat + c)
  (r, { jf := borrow, zf := isZero r, cf := borrow, hf := decide (nibble a < nibble b + c) })

/-- The flags of a logical result: JF is the new ZF, CF and HF are unchanged (R136 to R138). -/
def logicFlags {w : Nat} (f : Flags) (r : BitVec w) : BitVec w × Flags :=
  (r, { f with jf := isZero r, zf := isZero r })

/-- The flags of SUB with JF the new ZF (R139). -/
def cmpFlags {w : Nat} (a b : BitVec w) : BitVec w × Flags :=
  let d := subFlags a b 0
  (d.1, { d.2 with jf := d.2.zf })

/-- The ALU on any width (R131, R140). -/
def aluOf {w : Nat} (op : AluOp) (f : Flags) (a b : BitVec w) : BitVec w × Flags :=
  match op with
  | .addc => addFlags a b (carryIn f.cf)
  | .add => addFlags a b 0
  | .subb => subFlags a b (carryIn f.cf)
  | .sub => subFlags a b 0
  | .and => logicFlags f (a &&& b)
  | .xor => logicFlags f (a ^^^ b)
  | .or => logicFlags f (a ||| b)
  | .cmp => cmpFlags a b

/-- `alu8(op, a, b)` (R131 to R139). -/
def alu8 (op : AluOp) (f : Flags) (a b : Byte) : Byte × Flags := aluOf op f a b

/-- `alu16(op, a, b)` (R140). -/
def alu16 (op : AluOp) (f : Flags) (a b : Word) : Word × Flags := aluOf op f a b

/-! ## Increment and decrement (R152) -/

/-- `inc8`, `inc16`: JF is the carry out; CF and HF are unchanged. -/
def incFlags {w : Nat} (f : Flags) (v : BitVec w) : BitVec w × Flags :=
  (v + 1, { f with zf := isZero (v + 1), jf := decide (v = BitVec.allOnes w) })

/-- `dec8`, `dec16`: JF is the borrow out; CF and HF are unchanged. -/
def decFlags {w : Nat} (f : Flags) (v : BitVec w) : BitVec w × Flags :=
  (v - 1, { f with zf := isZero (v - 1), jf := isZero v })

/-! ## Multiply and divide (R163 to R165) -/

/-- The unsigned product of two bytes, and ZF and JF of its high byte (R163). -/
def mulFlags (f : Flags) (u v : Byte) : Word × Flags :=
  let p := zext16 u * zext16 v
  (p, { f with zf := isZero (hiByte p), jf := isZero (hiByte p) })

/-- The division is one of those whose result the spec leaves open (R165): by zero, or with a quotient above 0xFF. -/
def divOverflows (dividend : Word) (divisor : Byte) : Bool :=
  decide (divisor = 0) || decide (0xFF < dividend.toNat / divisor.toNat)

/-- Quotient and remainder of a division that does not overflow (R165). -/
def quotient (dividend : Word) (divisor : Byte) : Byte := BitVec.ofNat 8 (dividend.toNat / divisor.toNat)

/-- The remainder (R165). -/
def remainder (dividend : Word) (divisor : Byte) : Byte := BitVec.ofNat 8 (dividend.toNat % divisor.toNat)

/-! ## Decimal adjust (R168, R171) -/

/-- The correction of DAA and DAS: 0x06 for the low digit, 0x60 for the high digit (R168, R171). -/
def bcdCorrection (f : Flags) (v : Byte) : Byte :=
  (if f.hf ∨ 9 < nibble v then 0x06 else 0) ||| (if f.cf ∨ 0x99 < v.toNat then 0x60 else 0)

/-- The carry after DAA and DAS: set when the high-digit correction is applied (R168, R171). -/
def bcdCarry (f : Flags) (v : Byte) : Bool := f.cf || decide (0x99 < v.toNat)

/-- `daa(v)` (R168). -/
def daa (f : Flags) (v : Byte) : Byte × Flags :=
  let corr := bcdCorrection f v
  let r := v + corr
  (r, { jf := bcdCarry f v, zf := isZero r, cf := bcdCarry f v, hf := decide (15 < nibble v + nibble corr) })

/-- `das(v)` (R171). -/
def das (f : Flags) (v : Byte) : Byte × Flags :=
  let corr := bcdCorrection f v
  let r := v - corr
  (r, { jf := bcdCarry f v, zf := isZero r, cf := bcdCarry f v, hf := decide (nibble v < nibble corr) })

/-! ## Shifts and rotates (R174) -/

/-- The flags of a shift or rotate: CF is the bit shifted out, JF the new CF, HF is unchanged (R174). -/
def shiftFlags (f : Flags) (out : Bool) (r : Byte) : Byte × Flags :=
  (r, { f with cf := out, zf := isZero r, jf := out })

/-- `shlc(v)` (R174). -/
def shlc (f : Flags) (v : Byte) : Byte × Flags := shiftFlags f (v.getLsbD 7) (v <<< 1)

/-- `shrc(v)` (R174). -/
def shrc (f : Flags) (v : Byte) : Byte × Flags := shiftFlags f (v.getLsbD 0) (v >>> 1)

/-- The bit that a rotate feeds in: the outgoing bit, or the old carry with `ROTATE_THROUGH_CARRY` (R174). -/
def rotateFeed (p : Params) (f : Flags) (out : Bool) : Bool := if p.rotateThroughCarry then f.cf else out

/-- `rolc(v)` (R174). -/
def rolc (p : Params) (f : Flags) (v : Byte) : Byte × Flags :=
  let feed : Byte := if rotateFeed p f (v.getLsbD 7) then 0x01 else 0
  shiftFlags f (v.getLsbD 7) ((v <<< 1) ||| feed)

/-- `rorc(v)` (R174). -/
def rorc (p : Params) (f : Flags) (v : Byte) : Byte × Flags :=
  let feed : Byte := if rotateFeed p f (v.getLsbD 0) then 0x80 else 0
  shiftFlags f (v.getLsbD 0) ((v >>> 1) ||| feed)

/-! ## Nibbles (R183 to R186) -/

/-- The byte with its nibbles exchanged (R183). -/
def swapNibbles (v : Byte) : Byte := (v.setWidth 4 : BitVec 4) ++ ((v >>> 4).setWidth 4 : BitVec 4)

/-- The memory byte and the accumulator after ROLD: t[3:0] : A[3:0] and A[7:4] : t[7:4] (R185). -/
def rold (acc t : Byte) : Byte × Byte :=
  ((t.setWidth 4 : BitVec 4) ++ (acc.setWidth 4 : BitVec 4),
    ((acc >>> 4).setWidth 4 : BitVec 4) ++ ((t >>> 4).setWidth 4 : BitVec 4))

/-- The memory byte and the accumulator after RORD: A[3:0] : t[7:4] and A[7:4] : t[3:0] (R186). -/
def rord (acc t : Byte) : Byte × Byte :=
  ((acc.setWidth 4 : BitVec 4) ++ ((t >>> 4).setWidth 4 : BitVec 4),
    ((acc >>> 4).setWidth 4 : BitVec 4) ++ (t.setWidth 4 : BitVec 4))

/-- ZF of the accumulator and JF set: the flags of SWAP, ROLD, RORD and of a load into an 8-bit register (R96, R183,
R185). -/
def loadFlags (f : Flags) (v : Byte) : Flags := { f with jf := true, zf := isZero v }

/-! ## Bits (R187) -/

/-- Bit k of a byte. -/
def bitOf (v : Byte) (k : BitVec 3) : Bool := v.getLsbD k.toNat

/-- `1 << k`. -/
def bitMask (k : BitVec 3) : Byte := 1 <<< k.toNat

/-- The byte with bit k set. -/
def bitSet (v : Byte) (k : BitVec 3) : Byte := v ||| bitMask k

/-- The byte with bit k cleared. -/
def bitClear (v : Byte) (k : BitVec 3) : Byte := v &&& ~~~ bitMask k

/-- The byte with bit k complemented. -/
def bitFlip (v : Byte) (k : BitVec 3) : Byte := v ^^^ bitMask k

/-- The byte with bit k replaced by a flag. -/
def bitPut (v : Byte) (k : BitVec 3) (c : Bool) : Byte := bitClear v k ||| (if c then bitMask k else 0)

/-- SET, CLR, CPL and TEST: ZF and JF are the old bit, inverted (R187). -/
def testFlags (f : Flags) (t : Bool) : Flags := { f with zf := !t, jf := !t }

/-- The forms that write CF: JF is the new CF, inverted (R187). -/
def carryFlags (f : Flags) (c : Bool) : Flags := { f with cf := c, jf := !c }

/-- JF set and nothing else: the flags of every other transfer (R96). -/
def moveFlags (f : Flags) : Flags := { f with jf := true }

/-! ## Conditions (R215) -/

/-- `cond(cc)` (R77, R215). -/
def condHolds (f : Flags) : Cond → Bool
  | .eq => f.zf
  | .ne => !f.zf
  | .lt => f.cf
  | .ge => !f.cf
  | .le => f.cf || f.zf
  | .gt => !(f.cf || f.zf)
  | .always => true
  | .never => false

end Sys2Proof.Machine
end

