-- ==== Sys2Proof/Machine/Operands.lean ====
section
/-! DEFINITION. The operand forms: the addressing modes, and the shapes in which an instruction reads its operands,
computes and writes its results (spec/30_encoding.md R78 to R85, spec/20_memory.md R55, R56, R62). -/

namespace Sys2Proof.Machine

/-! ## Addressing modes -/

/-- The effective address of a mode, and the state after the side effect of (HL+) and (-HL) (R78 to R85). -/
def State.resolve (s : State) : Mode → Word × State
  | .direct x => (zext16 x, s)
  | .pcA => (s.start + 2 + zext16 (s.reg .a), s)
  | .de => (s.pair .de, s)
  | .hl => (s.pair .hl, s)
  | .hlDisp d => (s.pair .hl + sext16 d, s)
  | .hlC => (s.pair .hl + sext16 (s.reg .c), s)
  | .hlInc => (s.pair .hl, s.setPair .hl (s.pair .hl + 1))
  | .hlDec => (s.pair .hl - 1, s.setPair .hl (s.pair .hl - 1))

/-! ## Flags of the state -/

/-- The flags are written. -/
def State.setFlags (s : State) (f : Flags) : State := { s with flags := f }

/-- JF <- 1: a transfer that writes no other flag (R96). -/
def State.moved (s : State) : State := s.setFlags (moveFlags s.flags)

/-! ## Transfers (R96) -/

/-- A load into an 8-bit register: the register, JF and ZF (R96). -/
def State.loadReg (s : State) (r : Reg) (v : Byte) : State := (s.setReg r v).setFlags (loadFlags s.flags v)

/-- A load into a register pair: the pair and JF (R96). -/
def State.loadPair (s : State) (p : Pair) (v : Word) : State := (s.setPair p v).moved

/-- A byte store: the byte and JF (R96). -/
def State.store (s : State) (a : Word) (v : Byte) : State := (s.memWrite a v).moved

/-- A word store: the word and JF (R96). -/
def State.store16 (s : State) (a : Word) (v : Word) : State := (s.memWrite16 a v).moved

/-! ## Results computed with their flags -/

/-- A result written into a register together with its flags. -/
def State.putReg (s : State) (r : Reg) (out : Byte × Flags) : State := (s.setReg r out.1).setFlags out.2

/-- A result written into a pair together with its flags. -/
def State.putPair (s : State) (p : Pair) (out : Word × Flags) : State := (s.setPair p out.1).setFlags out.2

/-- A register through a function of the flags and its value. -/
def State.updateReg (s : State) (r : Reg) (k : Flags → Byte → Byte × Flags) : State :=
  s.putReg r (k s.flags (s.reg r))

/-- A pair through a function of the flags and its value. -/
def State.updatePair (s : State) (p : Pair) (k : Flags → Word → Word × Flags) : State :=
  s.putPair p (k s.flags (s.pair p))

/-- A read-modify-write of one byte: one read, then one write, at one address (R56). -/
def State.updateMem (s : State) (a : Word) (k : Flags → Byte → Byte × Flags) : State :=
  let v := s.memRead a
  let out := k v.2.flags v.1
  (v.2.memWrite a out.1).setFlags out.2

/-! ## The ALU forms (R141 to R151): CMP writes its flags only -/

/-- The result of an 8-bit ALU operation into register r, with the second operand b. -/
def State.aluReg (s : State) (op : AluOp) (r : Reg) (b : Byte) : State :=
  let out := alu8 op s.flags (s.reg r) b
  if op = .cmp then s.setFlags out.2 else s.putReg r out

/-- The result of a 16-bit ALU operation into pair p, with the second operand b. -/
def State.aluPair (s : State) (op : AluOp) (p : Pair) (b : Word) : State :=
  let out := alu16 op s.flags (s.pair p) b
  if op = .cmp then s.setFlags out.2 else s.putPair p out

/-- ALU A with the byte at an address (R142, R143). -/
def State.aluAMem (s : State) (op : AluOp) (a : Word) : State :=
  let v := s.memRead a
  v.2.aluReg op .a v.1

/-- ALU A,(src) (R143). -/
def State.aluASrc (s : State) (op : AluOp) (m : Mode) : State :=
  let ea := s.resolve m
  ea.2.aluAMem op ea.1

/-- The result of an 8-bit ALU operation on the byte v, just read at an address, written back there. -/
def State.aluBack (s : State) (op : AluOp) (a : Word) (v b : Byte) : State :=
  let out := alu8 op s.flags v b
  if op = .cmp then s.setFlags out.2 else (s.memWrite a out.1).setFlags out.2

/-- ALU (src),n (R147). -/
def State.aluSrcN (s : State) (op : AluOp) (m : Mode) (n : Byte) : State :=
  let ea := s.resolve m
  let v := ea.2.memRead ea.1
  v.2.aluBack op ea.1 v.1 n

/-- ALU (src),(HL): the byte at the effective address, then the byte at HL, read after the resolution (R148, R85). -/
def State.aluSrcHl (s : State) (op : AluOp) (m : Mode) : State :=
  let ea := s.resolve m
  let v := ea.2.memRead ea.1
  let w := v.2.memRead (v.2.pair .hl)
  w.2.aluBack op ea.1 v.1 w.1

/-! ## Multiply and divide -/

/-- The product of the two halves of a pair, into the pair (R163, R164). -/
def State.mulPair (s : State) (p : Pair) : State := s.putPair p (mulFlags s.flags (s.reg p.hi) (s.reg p.lo))

/-- `div(gg)` (R165): dividend and divisor are read before any write. Where the division overflows, ZF, the low and
the high register are free values, drawn in this order (log 9). -/
def State.divPair (s : State) (p : Pair) : State :=
  let dividend := s.pair p
  let divisor := s.reg .c
  if divOverflows dividend divisor then
    let z := s.drawBit
    let q := z.2.drawByte
    let r := q.2.drawByte
    ((r.2.setReg p.lo q.1).setReg p.hi r.1).setFlags { s.flags with cf := true, jf := true, zf := z.1 }
  else
    let q := quotient dividend divisor
    ((s.setReg p.lo q).setReg p.hi (remainder dividend divisor)).setFlags
      { s.flags with cf := false, jf := false, zf := isZero q }

/-! ## Digit rotates (R185, R186) -/

/-- A digit rotate through A and one memory byte: one read, one write at the same address. A is read before either
result is written (R257; log 16). -/
def State.digitRotate (s : State) (m : Mode) (k : Byte → Byte → Byte × Byte) : State :=
  let ea := s.resolve m
  let t := ea.2.memRead ea.1
  let out := k (t.2.reg .a) t.1
  (t.2.memWrite ea.1 out.1).loadReg .a out.2

/-! ## Bit forms (R187 to R189) -/

/-- SET, CLR or CPL of bit k of the byte at an address: the whole byte is written back (R188). -/
def State.changeBit (s : State) (a : Word) (k : BitVec 3) (f : Byte → BitVec 3 → Byte) : State :=
  s.updateMem a fun fl v => (f v k, testFlags fl (bitOf v k))

/-- LD bit,CF on the byte at an address (R187, R188). -/
def State.storeBit (s : State) (a : Word) (k : BitVec 3) : State :=
  s.updateMem a fun fl v => (bitPut v k fl.cf, moveFlags fl)

/-- TEST of bit k of the byte at an address: a read only (R188). -/
def State.testBit (s : State) (a : Word) (k : BitVec 3) : State :=
  let v := s.memRead a
  v.2.setFlags (testFlags v.2.flags (bitOf v.1 k))

/-- LD CF,bit on the byte at an address: a read only (R187). -/
def State.loadBit (s : State) (a : Word) (k : BitVec 3) : State :=
  let v := s.memRead a
  v.2.setFlags (carryFlags v.2.flags (bitOf v.1 k))

/-- XOR CF,bit on the byte at an address: a read only (R187). -/
def State.xorBit (s : State) (a : Word) (k : BitVec 3) : State :=
  let v := s.memRead a
  v.2.setFlags (carryFlags v.2.flags (v.2.flags.cf != bitOf v.1 k))

/-- SET, CLR or CPL of bit k of a register (R203 to R205). -/
def State.changeRegBit (s : State) (g : Reg) (k : BitVec 3) (f : Byte → BitVec 3 → Byte) : State :=
  s.updateReg g fun fl v => (f v k, testFlags fl (bitOf v k))

/-- The bit number of a (pp).g form: the low three bits of the value of register g (R189). -/
def State.bitIndex (s : State) (g : Reg) : BitVec 3 := (s.reg g).setWidth 3

/-! ## Control transfer -/

/-- A relative branch: start + 2 + the signed displacement (R217 to R220). -/
def State.branch (s : State) (disp : Word) : State := { s with pc := s.start + 2 + disp }

/-- PC <- target. -/
def State.jump (s : State) (target : Word) : State := { s with pc := target }

/-- A call: the return address is pushed, then PC is written (R224 to R228). -/
def State.call (s : State) (target : Word) : State := (s.push16 s.pc).jump target

end Sys2Proof.Machine
end

