-- ==== Sys2Proof/Machine/Alu.lean ====
section
/-! DEFINITION. The ALU instruction forms, and MCMP (spec/41_alu.md R141 to R151): one definition for each instruction. -/

namespace Sys2Proof.Machine

/-- ADDC A,n (R141). -/
def execAddcAN (n : Byte) (s : State) : Result :=
  .next (s.aluReg .addc .a n)

/-- ADDC A,(x) (R142). -/
def execAddcAX (x : Byte) (s : State) : Result :=
  .next (s.aluAMem .addc (zext16 x))

/-- ADDC A,(src) (R143). -/
def execAddcASrc (m : Mode) (s : State) : Result :=
  .next (s.aluASrc .addc m)

/-- ADDC A,g (R144). -/
def execAddcAG (g : Reg) (s : State) : Result :=
  .next (s.aluReg .addc .a (s.reg g))

/-- ADDC g,A (R145). -/
def execAddcGA (g : Reg) (s : State) : Result :=
  .next (s.aluReg .addc g (s.reg .a))

/-- ADDC g,n (R146). -/
def execAddcGN (g : Reg) (n : Byte) (s : State) : Result :=
  .next (s.aluReg .addc g n)

/-- ADDC (src),n (R147). -/
def execAddcSrcN (m : Mode) (n : Byte) (s : State) : Result :=
  .next (s.aluSrcN .addc m n)

/-- ADDC (src),(HL) (R148). -/
def execAddcSrcHl (m : Mode) (s : State) : Result :=
  .next (s.aluSrcHl .addc m)

/-- ADDC WA,gg (R150). -/
def execAddcWaGg (gg : Pair) (s : State) : Result :=
  .next (s.aluPair .addc .wa (s.pair gg))

/-- ADDC gg,mn (R151). -/
def execAddcGgMn (gg : Pair) (mn : Word) (s : State) : Result :=
  .next (s.aluPair .addc gg mn)

/-- ADD A,n (R141). -/
def execAddAN (n : Byte) (s : State) : Result :=
  .next (s.aluReg .add .a n)

/-- ADD A,(x) (R142). -/
def execAddAX (x : Byte) (s : State) : Result :=
  .next (s.aluAMem .add (zext16 x))

/-- ADD A,(src) (R143). -/
def execAddASrc (m : Mode) (s : State) : Result :=
  .next (s.aluASrc .add m)

/-- ADD A,g (R144). -/
def execAddAG (g : Reg) (s : State) : Result :=
  .next (s.aluReg .add .a (s.reg g))

/-- ADD g,A (R145). -/
def execAddGA (g : Reg) (s : State) : Result :=
  .next (s.aluReg .add g (s.reg .a))

/-- ADD g,n (R146). -/
def execAddGN (g : Reg) (n : Byte) (s : State) : Result :=
  .next (s.aluReg .add g n)

/-- ADD (src),n (R147). -/
def execAddSrcN (m : Mode) (n : Byte) (s : State) : Result :=
  .next (s.aluSrcN .add m n)

/-- ADD (src),(HL) (R148). -/
def execAddSrcHl (m : Mode) (s : State) : Result :=
  .next (s.aluSrcHl .add m)

/-- ADD WA,gg (R150). -/
def execAddWaGg (gg : Pair) (s : State) : Result :=
  .next (s.aluPair .add .wa (s.pair gg))

/-- ADD gg,mn (R151). -/
def execAddGgMn (gg : Pair) (mn : Word) (s : State) : Result :=
  .next (s.aluPair .add gg mn)

/-- SUBB A,n (R141). -/
def execSubbAN (n : Byte) (s : State) : Result :=
  .next (s.aluReg .subb .a n)

/-- SUBB A,(x) (R142). -/
def execSubbAX (x : Byte) (s : State) : Result :=
  .next (s.aluAMem .subb (zext16 x))

/-- SUBB A,(src) (R143). -/
def execSubbASrc (m : Mode) (s : State) : Result :=
  .next (s.aluASrc .subb m)

/-- SUBB A,g (R144). -/
def execSubbAG (g : Reg) (s : State) : Result :=
  .next (s.aluReg .subb .a (s.reg g))

/-- SUBB g,A (R145). -/
def execSubbGA (g : Reg) (s : State) : Result :=
  .next (s.aluReg .subb g (s.reg .a))

/-- SUBB g,n (R146). -/
def execSubbGN (g : Reg) (n : Byte) (s : State) : Result :=
  .next (s.aluReg .subb g n)

/-- SUBB (src),n (R147). -/
def execSubbSrcN (m : Mode) (n : Byte) (s : State) : Result :=
  .next (s.aluSrcN .subb m n)

/-- SUBB (src),(HL) (R148). -/
def execSubbSrcHl (m : Mode) (s : State) : Result :=
  .next (s.aluSrcHl .subb m)

/-- SUBB WA,gg (R150). -/
def execSubbWaGg (gg : Pair) (s : State) : Result :=
  .next (s.aluPair .subb .wa (s.pair gg))

/-- SUBB gg,mn (R151). -/
def execSubbGgMn (gg : Pair) (mn : Word) (s : State) : Result :=
  .next (s.aluPair .subb gg mn)

/-- SUB A,n (R141). -/
def execSubAN (n : Byte) (s : State) : Result :=
  .next (s.aluReg .sub .a n)

/-- SUB A,(x) (R142). -/
def execSubAX (x : Byte) (s : State) : Result :=
  .next (s.aluAMem .sub (zext16 x))

/-- SUB A,(src) (R143). -/
def execSubASrc (m : Mode) (s : State) : Result :=
  .next (s.aluASrc .sub m)

/-- SUB A,g (R144). -/
def execSubAG (g : Reg) (s : State) : Result :=
  .next (s.aluReg .sub .a (s.reg g))

/-- SUB g,A (R145). -/
def execSubGA (g : Reg) (s : State) : Result :=
  .next (s.aluReg .sub g (s.reg .a))

/-- SUB g,n (R146). -/
def execSubGN (g : Reg) (n : Byte) (s : State) : Result :=
  .next (s.aluReg .sub g n)

/-- SUB (src),n (R147). -/
def execSubSrcN (m : Mode) (n : Byte) (s : State) : Result :=
  .next (s.aluSrcN .sub m n)

/-- SUB (src),(HL) (R148). -/
def execSubSrcHl (m : Mode) (s : State) : Result :=
  .next (s.aluSrcHl .sub m)

/-- SUB WA,gg (R150). -/
def execSubWaGg (gg : Pair) (s : State) : Result :=
  .next (s.aluPair .sub .wa (s.pair gg))

/-- SUB gg,mn (R151). -/
def execSubGgMn (gg : Pair) (mn : Word) (s : State) : Result :=
  .next (s.aluPair .sub gg mn)

/-- AND A,n (R141). -/
def execAndAN (n : Byte) (s : State) : Result :=
  .next (s.aluReg .and .a n)

/-- AND A,(x) (R142). -/
def execAndAX (x : Byte) (s : State) : Result :=
  .next (s.aluAMem .and (zext16 x))

/-- AND A,(src) (R143). -/
def execAndASrc (m : Mode) (s : State) : Result :=
  .next (s.aluASrc .and m)

/-- AND A,g (R144). -/
def execAndAG (g : Reg) (s : State) : Result :=
  .next (s.aluReg .and .a (s.reg g))

/-- AND g,A (R145). -/
def execAndGA (g : Reg) (s : State) : Result :=
  .next (s.aluReg .and g (s.reg .a))

/-- AND g,n (R146). -/
def execAndGN (g : Reg) (n : Byte) (s : State) : Result :=
  .next (s.aluReg .and g n)

/-- AND (src),n (R147). -/
def execAndSrcN (m : Mode) (n : Byte) (s : State) : Result :=
  .next (s.aluSrcN .and m n)

/-- AND (src),(HL) (R148). -/
def execAndSrcHl (m : Mode) (s : State) : Result :=
  .next (s.aluSrcHl .and m)

/-- AND WA,gg (R150). -/
def execAndWaGg (gg : Pair) (s : State) : Result :=
  .next (s.aluPair .and .wa (s.pair gg))

/-- AND gg,mn (R151). -/
def execAndGgMn (gg : Pair) (mn : Word) (s : State) : Result :=
  .next (s.aluPair .and gg mn)

/-- XOR A,n (R141). -/
def execXorAN (n : Byte) (s : State) : Result :=
  .next (s.aluReg .xor .a n)

/-- XOR A,(x) (R142). -/
def execXorAX (x : Byte) (s : State) : Result :=
  .next (s.aluAMem .xor (zext16 x))

/-- XOR A,(src) (R143). -/
def execXorASrc (m : Mode) (s : State) : Result :=
  .next (s.aluASrc .xor m)

/-- XOR A,g (R144). -/
def execXorAG (g : Reg) (s : State) : Result :=
  .next (s.aluReg .xor .a (s.reg g))

/-- XOR g,A (R145). -/
def execXorGA (g : Reg) (s : State) : Result :=
  .next (s.aluReg .xor g (s.reg .a))

/-- XOR g,n (R146). -/
def execXorGN (g : Reg) (n : Byte) (s : State) : Result :=
  .next (s.aluReg .xor g n)

/-- XOR (src),n (R147). -/
def execXorSrcN (m : Mode) (n : Byte) (s : State) : Result :=
  .next (s.aluSrcN .xor m n)

/-- XOR (src),(HL) (R148). -/
def execXorSrcHl (m : Mode) (s : State) : Result :=
  .next (s.aluSrcHl .xor m)

/-- XOR WA,gg (R150). -/
def execXorWaGg (gg : Pair) (s : State) : Result :=
  .next (s.aluPair .xor .wa (s.pair gg))

/-- XOR gg,mn (R151). -/
def execXorGgMn (gg : Pair) (mn : Word) (s : State) : Result :=
  .next (s.aluPair .xor gg mn)

/-- OR A,n (R141). -/
def execOrAN (n : Byte) (s : State) : Result :=
  .next (s.aluReg .or .a n)

/-- OR A,(x) (R142). -/
def execOrAX (x : Byte) (s : State) : Result :=
  .next (s.aluAMem .or (zext16 x))

/-- OR A,(src) (R143). -/
def execOrASrc (m : Mode) (s : State) : Result :=
  .next (s.aluASrc .or m)

/-- OR A,g (R144). -/
def execOrAG (g : Reg) (s : State) : Result :=
  .next (s.aluReg .or .a (s.reg g))

/-- OR g,A (R145). -/
def execOrGA (g : Reg) (s : State) : Result :=
  .next (s.aluReg .or g (s.reg .a))

/-- OR g,n (R146). -/
def execOrGN (g : Reg) (n : Byte) (s : State) : Result :=
  .next (s.aluReg .or g n)

/-- OR (src),n (R147). -/
def execOrSrcN (m : Mode) (n : Byte) (s : State) : Result :=
  .next (s.aluSrcN .or m n)

/-- OR (src),(HL) (R148). -/
def execOrSrcHl (m : Mode) (s : State) : Result :=
  .next (s.aluSrcHl .or m)

/-- OR WA,gg (R150). -/
def execOrWaGg (gg : Pair) (s : State) : Result :=
  .next (s.aluPair .or .wa (s.pair gg))

/-- OR gg,mn (R151). -/
def execOrGgMn (gg : Pair) (mn : Word) (s : State) : Result :=
  .next (s.aluPair .or gg mn)

/-- CMP A,n (R141). -/
def execCmpAN (n : Byte) (s : State) : Result :=
  .next (s.aluReg .cmp .a n)

/-- CMP A,(x) (R142). -/
def execCmpAX (x : Byte) (s : State) : Result :=
  .next (s.aluAMem .cmp (zext16 x))

/-- CMP A,(src) (R143). -/
def execCmpASrc (m : Mode) (s : State) : Result :=
  .next (s.aluASrc .cmp m)

/-- CMP A,g (R144). -/
def execCmpAG (g : Reg) (s : State) : Result :=
  .next (s.aluReg .cmp .a (s.reg g))

/-- CMP g,A (R145). -/
def execCmpGA (g : Reg) (s : State) : Result :=
  .next (s.aluReg .cmp g (s.reg .a))

/-- CMP g,n (R146). -/
def execCmpGN (g : Reg) (n : Byte) (s : State) : Result :=
  .next (s.aluReg .cmp g n)

/-- CMP (src),n (R147). -/
def execCmpSrcN (m : Mode) (n : Byte) (s : State) : Result :=
  .next (s.aluSrcN .cmp m n)

/-- CMP (src),(HL) (R148). -/
def execCmpSrcHl (m : Mode) (s : State) : Result :=
  .next (s.aluSrcHl .cmp m)

/-- CMP WA,gg (R150). -/
def execCmpWaGg (gg : Pair) (s : State) : Result :=
  .next (s.aluPair .cmp .wa (s.pair gg))

/-- CMP gg,mn (R151). -/
def execCmpGgMn (gg : Pair) (mn : Word) (s : State) : Result :=
  .next (s.aluPair .cmp gg mn)

/-- MCMP (src),n (R149). A compare of one memory byte with an immediate. -/
def execMcmpSrcN (m : Mode) (n : Byte) (s : State) : Result :=
  .next (s.aluSrcN .cmp m n)

end Sys2Proof.Machine
end

