-- ==== Sys2Proof/Machine/Arith.lean ====
section
/-! DEFINITION. Increment, decrement, multiply, divide, decimal adjust, shifts, rotates and nibble operations (spec/41_alu.md R152 to R186): one definition for each instruction. -/

namespace Sys2Proof.Machine

/-- INC r (R153). -/
def execIncR (r : Reg) (s : State) : Result :=
  .next (s.updateReg r incFlags)

/-- INC rr (R155). -/
def execIncRr (rr : Pair) (s : State) : Result :=
  .next (s.updatePair rr incFlags)

/-- INC (x) (R157). -/
def execIncX (x : Byte) (s : State) : Result :=
  .next (s.updateMem (zext16 x) incFlags)

/-- INC (HL) (R158). -/
def execIncHl (s : State) : Result :=
  .next (s.updateMem (s.pair .hl) incFlags)

/-- INC (src) (R159). -/
def execIncSrc (m : Mode) (s : State) : Result :=
  let ea := s.resolve m
  .next (ea.2.updateMem ea.1 incFlags)

/-- DEC r (R154). -/
def execDecR (r : Reg) (s : State) : Result :=
  .next (s.updateReg r decFlags)

/-- DEC rr (R156). -/
def execDecRr (rr : Pair) (s : State) : Result :=
  .next (s.updatePair rr decFlags)

/-- DEC (x) (R160). -/
def execDecX (x : Byte) (s : State) : Result :=
  .next (s.updateMem (zext16 x) decFlags)

/-- DEC (HL) (R161). -/
def execDecHl (s : State) : Result :=
  .next (s.updateMem (s.pair .hl) decFlags)

/-- DEC (src) (R162). -/
def execDecSrc (m : Mode) (s : State) : Result :=
  let ea := s.resolve m
  .next (ea.2.updateMem ea.1 decFlags)

/-- MUL W,A (R163). -/
def execMulWA (s : State) : Result :=
  .next (s.mulPair .wa)

/-- MUL ggH,ggL (R164). -/
def execMulGg (gg : Pair) (s : State) : Result :=
  .next (s.mulPair gg)

/-- DIV WA,C (R166). -/
def execDivWaC (s : State) : Result :=
  .next (s.divPair .wa)

/-- DIV gg,C (R167). -/
def execDivGgC (gg : Pair) (s : State) : Result :=
  .next (s.divPair gg)

/-- DAA A (R169). -/
def execDaaA (s : State) : Result :=
  .next (s.updateReg .a daa)

/-- DAA g (R170). -/
def execDaaG (g : Reg) (s : State) : Result :=
  .next (s.updateReg g daa)

/-- DAS A (R172). -/
def execDasA (s : State) : Result :=
  .next (s.updateReg .a das)

/-- DAS g (R173). -/
def execDasG (g : Reg) (s : State) : Result :=
  .next (s.updateReg g das)

/-- SHLC A (R175). -/
def execShlcA (s : State) : Result :=
  .next (s.updateReg .a shlc)

/-- SHLC g (R179). -/
def execShlcG (g : Reg) (s : State) : Result :=
  .next (s.updateReg g shlc)

/-- SHRC A (R176). -/
def execShrcA (s : State) : Result :=
  .next (s.updateReg .a shrc)

/-- SHRC g (R180). -/
def execShrcG (g : Reg) (s : State) : Result :=
  .next (s.updateReg g shrc)

/-- ROLC A (R177). -/
def execRolcA (s : State) : Result :=
  .next (s.updateReg .a (rolc s.params))

/-- ROLC g (R181). -/
def execRolcG (g : Reg) (s : State) : Result :=
  .next (s.updateReg g (rolc s.params))

/-- RORC A (R178). -/
def execRorcA (s : State) : Result :=
  .next (s.updateReg .a (rorc s.params))

/-- RORC g (R182). -/
def execRorcG (g : Reg) (s : State) : Result :=
  .next (s.updateReg g (rorc s.params))

/-- SWAP A (R183). -/
def execSwapA (s : State) : Result :=
  .next (s.loadReg .a (swapNibbles (s.reg .a)))

/-- SWAP g (R184). -/
def execSwapG (g : Reg) (s : State) : Result :=
  .next (s.loadReg g (swapNibbles (s.reg g)))

/-- ROLD A,(src) (R185). -/
def execRoldASrc (m : Mode) (s : State) : Result :=
  .next (s.digitRotate m rold)

/-- RORD A,(src) (R186). -/
def execRordASrc (m : Mode) (s : State) : Result :=
  .next (s.digitRotate m rord)

end Sys2Proof.Machine
end

