-- ==== Sys2Proof/Machine/Bits.lean ====
section
/-! DEFINITION. The bit and carry-flag instructions (spec/42_bit.md): one definition for each instruction. -/

namespace Sys2Proof.Machine

/-- CLR CF (R190). -/
def execClrCf (s : State) : Result :=
  .next (s.setFlags (carryFlags s.flags false))

/-- SET CF (R191). -/
def execSetCf (s : State) : Result :=
  .next (s.setFlags (carryFlags s.flags true))

/-- CPL CF (R192). -/
def execCplCf (s : State) : Result :=
  .next (s.setFlags (carryFlags s.flags (!s.flags.cf)))

/-- SET (x).b (R193). -/
def execSetXB (x : Byte) (b : BitVec 3) (s : State) : Result :=
  .next (s.changeBit (zext16 x) b bitSet)

/-- CLR (x).b (R194). -/
def execClrXB (x : Byte) (b : BitVec 3) (s : State) : Result :=
  .next (s.changeBit (zext16 x) b bitClear)

/-- LD CF,(x).b (R195). -/
def execLdCfXB (x : Byte) (b : BitVec 3) (s : State) : Result :=
  .next (s.loadBit (zext16 x) b)

/-- SET (src).b (R196). -/
def execSetSrcB (m : Mode) (b : BitVec 3) (s : State) : Result :=
  let ea := s.resolve m
  .next (ea.2.changeBit ea.1 b bitSet)

/-- CLR (src).b (R197). -/
def execClrSrcB (m : Mode) (b : BitVec 3) (s : State) : Result :=
  let ea := s.resolve m
  .next (ea.2.changeBit ea.1 b bitClear)

/-- CPL (src).b (R199). -/
def execCplSrcB (m : Mode) (b : BitVec 3) (s : State) : Result :=
  let ea := s.resolve m
  .next (ea.2.changeBit ea.1 b bitFlip)

/-- TEST (src).b (R198). -/
def execTestSrcB (m : Mode) (b : BitVec 3) (s : State) : Result :=
  let ea := s.resolve m
  .next (ea.2.testBit ea.1 b)

/-- LD (src).b,CF (R200). -/
def execLdSrcBCf (m : Mode) (b : BitVec 3) (s : State) : Result :=
  let ea := s.resolve m
  .next (ea.2.storeBit ea.1 b)

/-- XOR CF,(src).b (R201). -/
def execXorCfSrcB (m : Mode) (b : BitVec 3) (s : State) : Result :=
  let ea := s.resolve m
  .next (ea.2.xorBit ea.1 b)

/-- LD CF,(src).b (R202). -/
def execLdCfSrcB (m : Mode) (b : BitVec 3) (s : State) : Result :=
  let ea := s.resolve m
  .next (ea.2.loadBit ea.1 b)

/-- SET g.b (R203). -/
def execSetGB (g : Reg) (b : BitVec 3) (s : State) : Result :=
  .next (s.changeRegBit g b bitSet)

/-- CLR g.b (R204). -/
def execClrGB (g : Reg) (b : BitVec 3) (s : State) : Result :=
  .next (s.changeRegBit g b bitClear)

/-- CPL g.b (R205). -/
def execCplGB (g : Reg) (b : BitVec 3) (s : State) : Result :=
  .next (s.changeRegBit g b bitFlip)

/-- LD g.b,CF (R206). -/
def execLdGBCf (g : Reg) (b : BitVec 3) (s : State) : Result :=
  .next (s.updateReg g fun fl v => (bitPut v b fl.cf, moveFlags fl))

/-- XOR CF,g.b (R207). -/
def execXorCfGB (g : Reg) (b : BitVec 3) (s : State) : Result :=
  .next (s.setFlags (carryFlags s.flags (s.flags.cf != bitOf (s.reg g) b)))

/-- LD CF,g.b (R208). -/
def execLdCfGB (g : Reg) (b : BitVec 3) (s : State) : Result :=
  .next (s.setFlags (carryFlags s.flags (bitOf (s.reg g) b)))

/-- SET (pp).g (R209). -/
def execSetPpG (pp : Pair) (g : Reg) (s : State) : Result :=
  .next (s.changeBit (s.pair pp) (s.bitIndex g) bitSet)

/-- CLR (pp).g (R210). -/
def execClrPpG (pp : Pair) (g : Reg) (s : State) : Result :=
  .next (s.changeBit (s.pair pp) (s.bitIndex g) bitClear)

/-- CPL (pp).g (R211). -/
def execCplPpG (pp : Pair) (g : Reg) (s : State) : Result :=
  .next (s.changeBit (s.pair pp) (s.bitIndex g) bitFlip)

/-- LD (pp).g,CF (R212). -/
def execLdPpGCf (pp : Pair) (g : Reg) (s : State) : Result :=
  .next (s.storeBit (s.pair pp) (s.bitIndex g))

/-- LD CF,(pp).g (R213). -/
def execLdCfPpG (pp : Pair) (g : Reg) (s : State) : Result :=
  .next (s.loadBit (s.pair pp) (s.bitIndex g))

end Sys2Proof.Machine
end

