-- ==== Sys2Proof/Machine/Control.lean ====
section
/-! DEFINITION. The control transfer, subroutine, return and system instructions (spec/43_control.md): one definition for each instruction. -/

namespace Sys2Proof.Machine

/-- NOP (R216). -/
def execNop (s : State) : Result :=
  .next s

/-- JRS T,a (R217). Taken when JF = 1. -/
def execJrsT (d5 : BitVec 5) (s : State) : Result :=
  .next (if s.flags.jf then s.branch (d5.signExtend 16) else s)

/-- JRS F,a (R218). Taken when JF = 0. -/
def execJrsF (d5 : BitVec 5) (s : State) : Result :=
  .next (if s.flags.jf then s else s.branch (d5.signExtend 16))

/-- JR cc,a (R219). -/
def execJrCc (cc : Cond) (d : Byte) (s : State) : Result :=
  .next (if condHolds s.flags cc then s.branch (sext16 d) else s)

/-- JR a (R220). -/
def execJr (d : Byte) (s : State) : Result :=
  .next (s.branch (sext16 d))

/-- JP mn (R221). -/
def execJpMn (mn : Word) (s : State) : Result :=
  .next (s.jump mn)

/-- JP gg (R222). -/
def execJpGg (gg : Pair) (s : State) : Result :=
  .next (s.jump (s.pair gg))

/-- JP (src) (R223). -/
def execJpSrc (m : Mode) (s : State) : Result :=
  let ea := s.resolve m
  let t := ea.2.memRead16 ea.1
  .next (t.2.jump t.1)

/-- CALL mn (R224). -/
def execCallMn (mn : Word) (s : State) : Result :=
  .next (s.call mn)

/-- CALL gg (R225). -/
def execCallGg (gg : Pair) (s : State) : Result :=
  .next (s.call (s.pair gg))

/-- CALL (src) (R226). The target is read before the return address is pushed. -/
def execCallSrc (m : Mode) (s : State) : Result :=
  let ea := s.resolve m
  let t := ea.2.memRead16 ea.1
  .next (t.2.call t.1)

/-- CALLV v4 (R227). The entry is read before the push. -/
def execCallv (v4 : BitVec 4) (s : State) : Result :=
  let t := s.memRead16 (s.params.callvBase + 2 * v4.setWidth 16)
  .next (t.2.call t.1)

/-- CALLP n (R228). -/
def execCallp (n : Byte) (s : State) : Result :=
  .next (s.call (joinBytes n s.params.callpPage))

/-- RET (R229). -/
def execRet (s : State) : Result :=
  let t := s.pop16
  .next (t.2.jump t.1)

/-- RETI (R230). IMF is set after the frame is popped. -/
def execReti (s : State) : Result :=
  .next { s.leave with imf := true }

/-- RETN (R231). IMF is unchanged. -/
def execRetn (s : State) : Result :=
  .next s.leave

/-- SWI (R232). Taken whatever IMF is. -/
def execSwi (s : State) : Result :=
  .next (s.enter s.params.vecSwi)

/-- LD RBS,n (R233). Bits 7..4 of n are ignored. -/
def execLdRbsN (n : Byte) (s : State) : Result :=
  .next { s with rbs := n.setWidth 4 }

end Sys2Proof.Machine
end

