-- ==== Sys2Proof/Machine/Transfer.lean ====
section
/-! DEFINITION. The transfer instructions (spec/40_transfer.md): one definition for each instruction. -/

namespace Sys2Proof.Machine

/-- LD A,r (R97). -/
def execLdAR (r : Reg) (s : State) : Result :=
  .next (s.loadReg .a (s.reg r))

/-- LD r,A (R98). -/
def execLdRA (r : Reg) (s : State) : Result :=
  .next (s.loadReg r (s.reg .a))

/-- LD r,n (R99). -/
def execLdRN (r : Reg) (n : Byte) (s : State) : Result :=
  .next (s.loadReg r n)

/-- LD r,g (R100). -/
def execLdRG (r : Reg) (g : Reg) (s : State) : Result :=
  .next (s.loadReg r (s.reg g))

/-- LD A,(x) (R101). -/
def execLdAX (x : Byte) (s : State) : Result :=
  let v := s.memRead (zext16 x)
  .next (v.2.loadReg .a v.1)

/-- LD A,(HL) (R102). -/
def execLdAHl (s : State) : Result :=
  let v := s.memRead (s.pair .hl)
  .next (v.2.loadReg .a v.1)

/-- LD r,(src) (R103). -/
def execLdRSrc (r : Reg) (m : Mode) (s : State) : Result :=
  let ea := s.resolve m
  let v := ea.2.memRead ea.1
  .next (v.2.loadReg r v.1)

/-- LD (x),A (R104). -/
def execLdXA (x : Byte) (s : State) : Result :=
  .next (s.store (zext16 x) (s.reg .a))

/-- LD (HL),A (R105). -/
def execLdHlA (s : State) : Result :=
  .next (s.store (s.pair .hl) (s.reg .a))

/-- LD (dst),r (R106). The stored register is read after the resolution (R85). -/
def execLdDstR (m : Mode) (r : Reg) (s : State) : Result :=
  let ea := s.resolve m
  .next (ea.2.store ea.1 (ea.2.reg r))

/-- LD (x),n (R107). -/
def execLdXN (x : Byte) (n : Byte) (s : State) : Result :=
  .next (s.store (zext16 x) n)

/-- LD (HL),n (R108). -/
def execLdHlN (n : Byte) (s : State) : Result :=
  .next (s.store (s.pair .hl) n)

/-- LD (dst),n (R109). -/
def execLdDstN (m : Mode) (n : Byte) (s : State) : Result :=
  let ea := s.resolve m
  .next (ea.2.store ea.1 n)

/-- LD (x),(y) (R110). -/
def execLdXY (x : Byte) (y : Byte) (s : State) : Result :=
  let v := s.memRead (zext16 y)
  .next (v.2.store (zext16 x) v.1)

/-- LD (x),(src) (R111). -/
def execLdXSrc (x : Byte) (m : Mode) (s : State) : Result :=
  let ea := s.resolve m
  let v := ea.2.memRead ea.1
  .next (v.2.store (zext16 x) v.1)

/-- LD (HL),(src) (R112). HL is read after the resolution (R85). -/
def execLdHlSrc (m : Mode) (s : State) : Result :=
  let ea := s.resolve m
  let v := ea.2.memRead ea.1
  .next (v.2.store (v.2.pair .hl) v.1)

/-- LD rr,mn (R113). -/
def execLdRrMn (rr : Pair) (mn : Word) (s : State) : Result :=
  .next (s.loadPair rr mn)

/-- LD rr,gg (R114). -/
def execLdRrGg (rr : Pair) (gg : Pair) (s : State) : Result :=
  .next (s.loadPair rr (s.pair gg))

/-- LD rr,(src) (R115). -/
def execLdRrSrc (rr : Pair) (m : Mode) (s : State) : Result :=
  let ea := s.resolve m
  let v := ea.2.memRead16 ea.1
  .next (v.2.loadPair rr v.1)

/-- LD (dst),rr (R116). The stored pair is read after the resolution (R85). -/
def execLdDstRr (m : Mode) (rr : Pair) (s : State) : Result :=
  let ea := s.resolve m
  .next (ea.2.store16 ea.1 (ea.2.pair rr))

/-- LDW (x),mn (R117). -/
def execLdwXMn (x : Byte) (mn : Word) (s : State) : Result :=
  .next (s.store16 (zext16 x) mn)

/-- LDW (HL),mn (R118). -/
def execLdwHlMn (mn : Word) (s : State) : Result :=
  .next (s.store16 (s.pair .hl) mn)

/-- CLR (x) (R119). No read happens. -/
def execClrX (x : Byte) (s : State) : Result :=
  .next (s.store (zext16 x) 0)

/-- CLR (HL) (R120). -/
def execClrHl (s : State) : Result :=
  .next (s.store (s.pair .hl) 0)

/-- XCH r,g (R121). Both registers are read before either is written (R257). -/
def execXchRG (r : Reg) (g : Reg) (s : State) : Result :=
  .next ((s.setReg r (s.reg g)).setReg g (s.reg r)).moved

/-- XCH rr,gg (R122). -/
def execXchRrGg (rr : Pair) (gg : Pair) (s : State) : Result :=
  .next ((s.setPair rr (s.pair gg)).setPair gg (s.pair rr)).moved

/-- XCH r,(src) (R123). -/
def execXchRSrc (r : Reg) (m : Mode) (s : State) : Result :=
  let ea := s.resolve m
  let t := ea.2.memRead ea.1
  .next ((t.2.memWrite ea.1 (t.2.reg r)).setReg r t.1).moved

/-- PUSH gg (R124). -/
def execPushGg (gg : Pair) (s : State) : Result :=
  .next (s.push16 (s.pair gg))

/-- POP gg (R125). -/
def execPopGg (gg : Pair) (s : State) : Result :=
  let v := s.pop16
  .next (v.2.setPair gg v.1)

/-- PUSH PSW (R126). -/
def execPushPsw (s : State) : Result :=
  .next (s.push8 s.getPsw)

/-- POP PSW (R127). With `PSW_LOW_NIBBLE = RBS` the bank selector is written too (R29). -/
def execPopPsw (s : State) : Result :=
  let v := s.pop8
  .next (v.2.setPsw v.1)

/-- LD SP,mn (R128). -/
def execLdSpMn (mn : Word) (s : State) : Result :=
  .next { s.moved with sp := mn }

/-- LD SP,gg (R129). -/
def execLdSpGg (gg : Pair) (s : State) : Result :=
  .next { s.moved with sp := s.pair gg }

/-- LD gg,SP (R130). -/
def execLdGgSp (gg : Pair) (s : State) : Result :=
  .next (s.loadPair gg s.sp)

end Sys2Proof.Machine
end

