-- ==== Sys2Proof/Machine/Dispatch.lean ====
section
/-! DEFINITION. The meaning of each instruction: one arm for each constructor of `Instr`. -/

namespace Sys2Proof.Machine

def exec (i : Instr) (s : State) : Host.Outcome State Fault Refusal :=
  match i with
  | .nop => Sys2Proof.Machine.execNop s
  | .swapA => Sys2Proof.Machine.execSwapA s
  | .mulWA => Sys2Proof.Machine.execMulWA s
  | .divWaC => Sys2Proof.Machine.execDivWaC s
  | .reti => Sys2Proof.Machine.execReti s
  | .ret => Sys2Proof.Machine.execRet s
  | .popPsw => Sys2Proof.Machine.execPopPsw s
  | .pushPsw => Sys2Proof.Machine.execPushPsw s
  | .daaA => Sys2Proof.Machine.execDaaA s
  | .dasA => Sys2Proof.Machine.execDasA s
  | .clrCf => Sys2Proof.Machine.execClrCf s
  | .setCf => Sys2Proof.Machine.execSetCf s
  | .cplCf => Sys2Proof.Machine.execCplCf s
  | .ldRbsN n => Sys2Proof.Machine.execLdRbsN n s
  | .incRr rr => Sys2Proof.Machine.execIncRr rr s
  | .ldRrMn rr mn => Sys2Proof.Machine.execLdRrMn rr mn s
  | .decRr rr => Sys2Proof.Machine.execDecRr rr s
  | .shlcA => Sys2Proof.Machine.execShlcA s
  | .shrcA => Sys2Proof.Machine.execShrcA s
  | .rolcA => Sys2Proof.Machine.execRolcA s
  | .rorcA => Sys2Proof.Machine.execRorcA s
  | .incX x => Sys2Proof.Machine.execIncX x s
  | .incHl => Sys2Proof.Machine.execIncHl s
  | .ldAX x => Sys2Proof.Machine.execLdAX x s
  | .ldAHl => Sys2Proof.Machine.execLdAHl s
  | .ldwXMn x mn => Sys2Proof.Machine.execLdwXMn x mn s
  | .ldwHlMn mn => Sys2Proof.Machine.execLdwHlMn mn s
  | .ldXY x y => Sys2Proof.Machine.execLdXY x y s
  | .decX x => Sys2Proof.Machine.execDecX x s
  | .decHl => Sys2Proof.Machine.execDecHl s
  | .ldXA x => Sys2Proof.Machine.execLdXA x s
  | .ldHlA => Sys2Proof.Machine.execLdHlA s
  | .ldXN x n => Sys2Proof.Machine.execLdXN x n s
  | .ldHlN n => Sys2Proof.Machine.execLdHlN n s
  | .clrX x => Sys2Proof.Machine.execClrX x s
  | .clrHl => Sys2Proof.Machine.execClrHl s
  | .ldRN r n => Sys2Proof.Machine.execLdRN r n s
  | .setXB x b => Sys2Proof.Machine.execSetXB x b s
  | .clrXB x b => Sys2Proof.Machine.execClrXB x b s
  | .ldAR r => Sys2Proof.Machine.execLdAR r s
  | .ldRA r => Sys2Proof.Machine.execLdRA r s
  | .incR r => Sys2Proof.Machine.execIncR r s
  | .decR r => Sys2Proof.Machine.execDecR r s
  | .addcAN n => Sys2Proof.Machine.execAddcAN n s
  | .addAN n => Sys2Proof.Machine.execAddAN n s
  | .subbAN n => Sys2Proof.Machine.execSubbAN n s
  | .subAN n => Sys2Proof.Machine.execSubAN n s
  | .andAN n => Sys2Proof.Machine.execAndAN n s
  | .xorAN n => Sys2Proof.Machine.execXorAN n s
  | .orAN n => Sys2Proof.Machine.execOrAN n s
  | .cmpAN n => Sys2Proof.Machine.execCmpAN n s
  | .addcAX x => Sys2Proof.Machine.execAddcAX x s
  | .addAX x => Sys2Proof.Machine.execAddAX x s
  | .subbAX x => Sys2Proof.Machine.execSubbAX x s
  | .subAX x => Sys2Proof.Machine.execSubAX x s
  | .andAX x => Sys2Proof.Machine.execAndAX x s
  | .xorAX x => Sys2Proof.Machine.execXorAX x s
  | .orAX x => Sys2Proof.Machine.execOrAX x s
  | .cmpAX x => Sys2Proof.Machine.execCmpAX x s
  | .jrsT d5 => Sys2Proof.Machine.execJrsT d5 s
  | .jrsF d5 => Sys2Proof.Machine.execJrsF d5 s
  | .callv v4 => Sys2Proof.Machine.execCallv v4 s
  | .jrCc cc d => Sys2Proof.Machine.execJrCc cc d s
  | .ldCfXB x b => Sys2Proof.Machine.execLdCfXB x b s
  | .jr d => Sys2Proof.Machine.execJr d s
  | .roldASrc m => Sys2Proof.Machine.execRoldASrc m s
  | .rordASrc m => Sys2Proof.Machine.execRordASrc m s
  | .ldRrSrc rr m => Sys2Proof.Machine.execLdRrSrc rr m s
  | .incSrc m => Sys2Proof.Machine.execIncSrc m s
  | .ldXSrc x m => Sys2Proof.Machine.execLdXSrc x m s
  | .ldHlSrc m => Sys2Proof.Machine.execLdHlSrc m s
  | .decSrc m => Sys2Proof.Machine.execDecSrc m s
  | .mcmpSrcN m n => Sys2Proof.Machine.execMcmpSrcN m n s
  | .setSrcB m b => Sys2Proof.Machine.execSetSrcB m b s
  | .clrSrcB m b => Sys2Proof.Machine.execClrSrcB m b s
  | .testSrcB m b => Sys2Proof.Machine.execTestSrcB m b s
  | .ldRSrc r m => Sys2Proof.Machine.execLdRSrc r m s
  | .addcSrcHl m => Sys2Proof.Machine.execAddcSrcHl m s
  | .addSrcHl m => Sys2Proof.Machine.execAddSrcHl m s
  | .subbSrcHl m => Sys2Proof.Machine.execSubbSrcHl m s
  | .subSrcHl m => Sys2Proof.Machine.execSubSrcHl m s
  | .andSrcHl m => Sys2Proof.Machine.execAndSrcHl m s
  | .xorSrcHl m => Sys2Proof.Machine.execXorSrcHl m s
  | .orSrcHl m => Sys2Proof.Machine.execOrSrcHl m s
  | .cmpSrcHl m => Sys2Proof.Machine.execCmpSrcHl m s
  | .addcSrcN m n => Sys2Proof.Machine.execAddcSrcN m n s
  | .addSrcN m n => Sys2Proof.Machine.execAddSrcN m n s
  | .subbSrcN m n => Sys2Proof.Machine.execSubbSrcN m n s
  | .subSrcN m n => Sys2Proof.Machine.execSubSrcN m n s
  | .andSrcN m n => Sys2Proof.Machine.execAndSrcN m n s
  | .xorSrcN m n => Sys2Proof.Machine.execXorSrcN m n s
  | .orSrcN m n => Sys2Proof.Machine.execOrSrcN m n s
  | .cmpSrcN m n => Sys2Proof.Machine.execCmpSrcN m n s
  | .addcASrc m => Sys2Proof.Machine.execAddcASrc m s
  | .addASrc m => Sys2Proof.Machine.execAddASrc m s
  | .subbASrc m => Sys2Proof.Machine.execSubbASrc m s
  | .subASrc m => Sys2Proof.Machine.execSubASrc m s
  | .andASrc m => Sys2Proof.Machine.execAndASrc m s
  | .xorASrc m => Sys2Proof.Machine.execXorASrc m s
  | .orASrc m => Sys2Proof.Machine.execOrASrc m s
  | .cmpASrc m => Sys2Proof.Machine.execCmpASrc m s
  | .xchRSrc r m => Sys2Proof.Machine.execXchRSrc r m s
  | .cplSrcB m b => Sys2Proof.Machine.execCplSrcB m b s
  | .ldSrcBCf m b => Sys2Proof.Machine.execLdSrcBCf m b s
  | .xorCfSrcB m b => Sys2Proof.Machine.execXorCfSrcB m b s
  | .ldCfSrcB m b => Sys2Proof.Machine.execLdCfSrcB m b s
  | .callSrc m => Sys2Proof.Machine.execCallSrc m s
  | .jpSrc m => Sys2Proof.Machine.execJpSrc m s
  | .ldDstRr m rr => Sys2Proof.Machine.execLdDstRr m rr s
  | .ldDstN m n => Sys2Proof.Machine.execLdDstN m n s
  | .ldDstR m r => Sys2Proof.Machine.execLdDstR m r s
  | .swapG g => Sys2Proof.Machine.execSwapG g s
  | .mulGg gg => Sys2Proof.Machine.execMulGg gg s
  | .divGgC gg => Sys2Proof.Machine.execDivGgC gg s
  | .retn => Sys2Proof.Machine.execRetn s
  | .popGg gg => Sys2Proof.Machine.execPopGg gg s
  | .pushGg gg => Sys2Proof.Machine.execPushGg gg s
  | .daaG g => Sys2Proof.Machine.execDaaG g s
  | .dasG g => Sys2Proof.Machine.execDasG g s
  | .xchRrGg rr gg => Sys2Proof.Machine.execXchRrGg rr gg s
  | .ldRrGg rr gg => Sys2Proof.Machine.execLdRrGg rr gg s
  | .shlcG g => Sys2Proof.Machine.execShlcG g s
  | .shrcG g => Sys2Proof.Machine.execShrcG g s
  | .rolcG g => Sys2Proof.Machine.execRolcG g s
  | .rorcG g => Sys2Proof.Machine.execRorcG g s
  | .addcWaGg gg => Sys2Proof.Machine.execAddcWaGg gg s
  | .addWaGg gg => Sys2Proof.Machine.execAddWaGg gg s
  | .subbWaGg gg => Sys2Proof.Machine.execSubbWaGg gg s
  | .subWaGg gg => Sys2Proof.Machine.execSubWaGg gg s
  | .andWaGg gg => Sys2Proof.Machine.execAndWaGg gg s
  | .xorWaGg gg => Sys2Proof.Machine.execXorWaGg gg s
  | .orWaGg gg => Sys2Proof.Machine.execOrWaGg gg s
  | .cmpWaGg gg => Sys2Proof.Machine.execCmpWaGg gg s
  | .addcGgMn gg mn => Sys2Proof.Machine.execAddcGgMn gg mn s
  | .addGgMn gg mn => Sys2Proof.Machine.execAddGgMn gg mn s
  | .subbGgMn gg mn => Sys2Proof.Machine.execSubbGgMn gg mn s
  | .subGgMn gg mn => Sys2Proof.Machine.execSubGgMn gg mn s
  | .andGgMn gg mn => Sys2Proof.Machine.execAndGgMn gg mn s
  | .xorGgMn gg mn => Sys2Proof.Machine.execXorGgMn gg mn s
  | .orGgMn gg mn => Sys2Proof.Machine.execOrGgMn gg mn s
  | .cmpGgMn gg mn => Sys2Proof.Machine.execCmpGgMn gg mn s
  | .setGB g b => Sys2Proof.Machine.execSetGB g b s
  | .clrGB g b => Sys2Proof.Machine.execClrGB g b s
  | .ldRG r g => Sys2Proof.Machine.execLdRG r g s
  | .addcAG g => Sys2Proof.Machine.execAddcAG g s
  | .addAG g => Sys2Proof.Machine.execAddAG g s
  | .subbAG g => Sys2Proof.Machine.execSubbAG g s
  | .subAG g => Sys2Proof.Machine.execSubAG g s
  | .andAG g => Sys2Proof.Machine.execAndAG g s
  | .xorAG g => Sys2Proof.Machine.execXorAG g s
  | .orAG g => Sys2Proof.Machine.execOrAG g s
  | .cmpAG g => Sys2Proof.Machine.execCmpAG g s
  | .addcGA g => Sys2Proof.Machine.execAddcGA g s
  | .addGA g => Sys2Proof.Machine.execAddGA g s
  | .subbGA g => Sys2Proof.Machine.execSubbGA g s
  | .subGA g => Sys2Proof.Machine.execSubGA g s
  | .andGA g => Sys2Proof.Machine.execAndGA g s
  | .xorGA g => Sys2Proof.Machine.execXorGA g s
  | .orGA g => Sys2Proof.Machine.execOrGA g s
  | .cmpGA g => Sys2Proof.Machine.execCmpGA g s
  | .addcGN g n => Sys2Proof.Machine.execAddcGN g n s
  | .addGN g n => Sys2Proof.Machine.execAddGN g n s
  | .subbGN g n => Sys2Proof.Machine.execSubbGN g n s
  | .subGN g n => Sys2Proof.Machine.execSubGN g n s
  | .andGN g n => Sys2Proof.Machine.execAndGN g n s
  | .xorGN g n => Sys2Proof.Machine.execXorGN g n s
  | .orGN g n => Sys2Proof.Machine.execOrGN g n s
  | .cmpGN g n => Sys2Proof.Machine.execCmpGN g n s
  | .setPpG pp g => Sys2Proof.Machine.execSetPpG pp g s
  | .clrPpG pp g => Sys2Proof.Machine.execClrPpG pp g s
  | .cplPpG pp g => Sys2Proof.Machine.execCplPpG pp g s
  | .ldPpGCf pp g => Sys2Proof.Machine.execLdPpGCf pp g s
  | .ldCfPpG pp g => Sys2Proof.Machine.execLdCfPpG pp g s
  | .xchRG r g => Sys2Proof.Machine.execXchRG r g s
  | .cplGB g b => Sys2Proof.Machine.execCplGB g b s
  | .ldGBCf g b => Sys2Proof.Machine.execLdGBCf g b s
  | .xorCfGB g b => Sys2Proof.Machine.execXorCfGB g b s
  | .ldCfGB g b => Sys2Proof.Machine.execLdCfGB g b s
  | .ldSpGg gg => Sys2Proof.Machine.execLdSpGg gg s
  | .ldGgSp gg => Sys2Proof.Machine.execLdGgSp gg s
  | .callGg gg => Sys2Proof.Machine.execCallGg gg s
  | .jpGg gg => Sys2Proof.Machine.execJpGg gg s
  | .ldSpMn mn => Sys2Proof.Machine.execLdSpMn mn s
  | .callMn mn => Sys2Proof.Machine.execCallMn mn s
  | .callp n => Sys2Proof.Machine.execCallp n s
  | .jpMn mn => Sys2Proof.Machine.execJpMn mn s
  | .swi => Sys2Proof.Machine.execSwi s

end Sys2Proof.Machine
end

