-- ==== Sys2Proof/Machine/Engine.lean ====
section
/-! DEFINITION. The execution engine: what one invocation does after its boundary (spec/30_encoding.md R72,
spec/60_exceptions.md R235, R238). -/

namespace Sys2Proof.Machine

/-- One instruction is fetched, decoded and executed, and its event reported; bytes that match no instruction are
consumed and reported, and nothing else changes (R72, R235). -/
def State.runInstr (s : State) : Result :=
  let begun : State := { s with start := s.pc }
  let fetched := begun.fetchInstr [] 4
  match fetched.2.1 with
  | none => .next (fetched.2.2.report (.illegal fetched.1))
  | some i =>
    match exec i fetched.2.2 with
    | .next t => .next (t.report (.executed i))
    | .fault r => .fault r
    | .refused r => .refused r

/-- The choice at a boundary, after the sampling (R238): the non-maskable request, else the lowest maskable line when
IMF = 1, else one instruction. `levels` are the maskable levels read at this boundary. -/
def State.choose (s : State) (levels : List Bool) : Result :=
  if s.nmip then .next s.acceptNmi
  else
    match (if s.imf then lowestIrq levels s.params.vecIrq 0 else none) with
    | some (k, v) => .next (s.acceptIrq k v)
    | none => s.runInstr

end Sys2Proof.Machine
end

