-- ==== Sys2Proof/Machine/Step.lean ====
section
/-! DEFINITION. The step (spec/30_encoding.md R72), and the state whose next step runs a given word. -/

namespace Sys2Proof.Machine

/-- One invocation of the engine: the boundary is sampled, then one interrupt is accepted or one instruction is
executed (R72, R237, R238). -/
def step (s : State) : Host.Outcome State Fault Refusal := s.boundary.choose s.inputs.irq

/-- Bytes stored at consecutive addresses from `a` on, modulo 65536, as plain memory. -/
def State.place (s : State) (a : Word) : List Byte → State
  | [] => s
  | v :: rest => State.place { s with mem := s.mem.write a.toNat v, io := s.io.filter (· ≠ a.toNat) } (a + 1) rest

/-- The state in which the instruction with key `w` stands where the next step fetches: its bytes are stored from PC
on, as plain memory, and nothing is asserted at the coming boundary, so that the step fetches them. -/
def State.withFetchWord (s : State) (nbits w : Nat) : State :=
  { s with inputs := Inputs.quiet, nmip := false }.place s.pc (keyLayout nbits w)

end Sys2Proof.Machine
end

