-- ==== Sys2Proof/Safety.lean ====
section
/-! DEFINITION. The terms that the statements use: the plain platform, the frame of a step, the frame of an interrupt
entry. -/

namespace Sys2Proof.Machine

/-- `BANK_ALIAS` and `IMF_ALIAS` have their default `none` (R9) and plain memory answers at every address: no memory
access reads or writes a register (R23), touches IMF (R243) or reaches a device (R63). -/
abbrev State.Plain (s : State) : Prop :=
  s.params.bankAlias = none ∧ s.params.imfAlias = none ∧ s.io = []

/-- The frame: `t` is `s`, but for the registers `regs` of the current bank, the bytes of memory at `cells`, and the bus
accesses `acc`, made in this order. Where `BANK_ALIAS` makes registers and bytes one storage (R23), the byte of a
register in `regs` and the register of a byte in `cells` are of course not kept either. -/
structure SameBut (s t : State) (regs : List Reg) (cells : List Word) (acc : List BusAccess) : Prop where
  /-- Every other register of every bank. -/
  bankReg : ∀ (n : BitVec 4) (r : Reg), ¬ (n = s.rbs ∧ r ∈ regs) →
    (∀ base, s.params.bankAlias = some base → bankAddr base n r ∉ cells) → t.bankReg n r = s.bankReg n r
  /-- Every other byte of memory. -/
  peek : ∀ a : Word, a ∉ cells →
    (∀ base, s.params.bankAlias = some base → ∀ r ∈ regs, a ≠ bankAddr base s.rbs r) → t.peek a = s.peek a
  /-- The bus accesses. -/
  bus : t.bus = s.bus ++ acc
  rbs : t.rbs = s.rbs
  pc : t.pc = s.pc
  sp : t.sp = s.sp
  flags : t.flags = s.flags
  imf : t.imf = s.imf
  nmip : t.nmip = s.nmip
  nmil : t.nmil = s.nmil
  io : t.io = s.io
  params : t.params = s.params
  inputs : t.inputs = s.inputs
  later : t.later = s.later
  start : t.start = s.start
  draws : t.draws = s.draws
  ack : t.ack = s.ack
  events : t.events = s.events

/-- RBS after the PSW is written with `v` (R29). -/
def State.bankAfterPsw (s : State) (v : Byte) : BitVec 4 :=
  match s.params.pswLow with
  | .zero => s.rbs
  | .rbs => v.setWidth 4

/-- The four flags after the PSW is written with `v` (R29). -/
def flagsOfPsw (v : Byte) : Flags where
  jf := v.getLsbD 7
  zf := v.getLsbD 6
  cf := v.getLsbD 5
  hf := v.getLsbD 4

/-- The bus accesses that load PC through the vector address `v`, read from the memory of `s` (R239). -/
def vectorReads (s : State) (v : Word) : List BusAccess :=
  match s.params.vectorMode with
  | .indirect => [.read v (s.peek v), .read (v + 1) (s.peek (v + 1))]
  | .direct => []

/-- The PC that the vector address `v` leads to (R239, R252). -/
def vectorTarget (s : State) (v : Word) : Word :=
  match s.params.vectorMode with
  | .indirect => joinBytes (s.peek v) (s.peek (v + 1))
  | .direct => v

/-- `t` is what `enter(v)` makes of `s` (R239, R61): the frame of three bytes on the stack, JF and IMF clear, PC loaded
through the vector, and nothing else. -/
def Enters (s t : State) (v : Word) : Prop :=
  t.peek (s.sp - 1) = hiByte s.pc ∧ t.peek (s.sp - 2) = loByte s.pc ∧ t.peek (s.sp - 3) = s.getPsw ∧
  SameBut { s with pc := vectorTarget t v, sp := s.sp - 3, flags := { s.flags with jf := false }, imf := false } t
    [] [s.sp - 1, s.sp - 2, s.sp - 3]
    ([.write (s.sp - 1) (hiByte s.pc), .write (s.sp - 2) (loByte s.pc), .write (s.sp - 3) s.getPsw] ++ vectorReads t v)

/-- What SET, CLR, CPL and LD bit,CF do to the byte at `a` (R187, R188): bit `b` becomes `w`, the other seven stay, and
the whole byte is written once after one read. Everything else is as in `u`, with the flags `f`. -/
def BitWritten (s u t : State) (a : Word) (b : BitVec 3) (w : Bool) (f : Flags) : Prop :=
  (∀ j, j < 8 → (t.peek a).getLsbD j = if j = b.toNat then w else (s.peek a).getLsbD j) ∧
  SameBut { u with flags := f } t [] [a] [.read a (s.peek a), .write a (t.peek a)]

/-- No maskable line below the first `n` is asserted in the inputs `i` (R33, R237). -/
abbrev Inputs.calm (i : Inputs) (n : Nat) : Prop := ∀ k, k < n → i.irq.getD k false = false

/-- The value of a byte that holds two decimal digits. -/
def bcdValue (v : Byte) : Nat := 10 * (v.toNat / 16) + v.toNat % 16

/-- Both nibbles of a byte are decimal digits (R13). -/
def isBcd (v : Byte) : Bool := decide (v.toNat / 16 < 10) && decide (v.toNat % 16 < 10)

end Sys2Proof.Machine
end

