-- ==== Sys2Proof/Certificates/Slice0/Obligations.lean ====
section
/-! DEFINITION. The statements about the machine, from the numbered rules of spec/. `SameBut u t regs cells acc` is the
frame: the next state `t` is `u` but for the registers, bytes and bus accesses it names. Reading one byte of memory is
`State.peek`; in a `State.Plain` state it is what a bus read answers. PC has moved past the instruction when `exec`
runs it (R26), so `t.pc = s.pc` says that an instruction falls through. -/

open Sys2Proof Sys2Proof.Machine

/-! ## Encoding and decoding -/

/-- Decode undoes encode: for every well-formed instruction, with every operand at every value, and any bytes after it,
the decoder reads exactly that instruction and leaves exactly the bytes that follow (R86 to R91). -/
def Obligations.DecodeOfEncode : Prop :=
  ∀ (i : Instr) (rest : List Byte), i.wellFormed = true → decode (encode i ++ rest) = .instr i rest

/-- Encode undoes decode: whatever the decoder accepts is well formed, the bytes it consumed are the encoding of the
instruction, 1 to 4 bytes, and the rest is left: no two byte sequences are one instruction, none is two (R93, R94). -/
def Obligations.EncodeOfDecode : Prop :=
  ∀ (bytes rest : List Byte) (i : Instr), decode bytes = .instr i rest →
    i.wellFormed = true ∧ bytes = encode i ++ rest ∧ 1 ≤ (encode i).length ∧ (encode i).length ≤ 4

/-- R92 and R90. The illegal sequences, group by group: the bytes consumed end with the byte that failed to match, and
every shorter beginning asks for one more byte. The lists of operation bytes are those that R87, R88, R89 and R91 name;
every other one is illegal. -/
def Obligations.IllegalEncodings : Prop :=
  (∀ (b0 : Byte) (rest : List Byte),
    (b0 = 0x08 ∨ b0 = 0x09 ∨ b0 = 0x27 ∨ (0x38 ≤ b0 ∧ b0 ≤ 0x3F) ∨ (0xF8 ≤ b0 ∧ b0 ≤ 0xFA) ∨ (0xFC ≤ b0 ∧ b0 ≤ 0xFE)) →
    decode (b0 :: rest) = .illegal .firstByte) ∧
  (∀ (m : Mode) (o : Byte) (rest : List Byte),
    ¬ (o = 0x08 ∨ o = 0x09 ∨ (0x14 ≤ o ∧ o ≤ 0x17) ∨ o = 0x20 ∨ o = 0x26 ∨ o = 0x27 ∨ o = 0x28 ∨ o = 0x2F ∨
      (0x40 ≤ o ∧ o ≤ 0x6F) ∨ (0x78 ≤ o ∧ o ≤ 0x7F) ∨ (0xA8 ≤ o ∧ o ≤ 0xAF) ∨ (0xC0 ≤ o ∧ o ≤ 0xDF) ∨ o = 0xFC ∨
      o = 0xFE) →
    decode ((0xE0 ||| m.code) :: (m.ext ++ o :: rest)) = .illegal .sourceOp) ∧
  (∀ (m : Mode) (o : Byte) (rest : List Byte),
    ¬ ((0x10 ≤ o ∧ o ≤ 0x13) ∨ o = 0x2C ∨ (0x50 ≤ o ∧ o ≤ 0x57)) →
    decode ((0xF0 ||| m.code) :: (m.ext ++ o :: rest)) = .illegal .destOp) ∧
  (∀ (g : Reg) (o : Byte) (rest : List Byte),
    ¬ ((0x01 ≤ o ∧ o ≤ 0x04) ∨ o = 0x06 ∨ o = 0x07 ∨ o = 0x0A ∨ o = 0x0B ∨ (0x10 ≤ o ∧ o ≤ 0x17) ∨
      (0x1C ≤ o ∧ o ≤ 0x1F) ∨ (0x30 ≤ o ∧ o ≤ 0x4F) ∨ (0x58 ≤ o ∧ o ≤ 0x77) ∨ o = 0x82 ∨ o = 0x83 ∨ o = 0x8A ∨
      o = 0x8B ∨ o = 0x92 ∨ o = 0x93 ∨ o = 0x9A ∨ o = 0x9B ∨ o = 0x9E ∨ o = 0x9F ∨ (0xA8 ≤ o ∧ o ≤ 0xAF) ∨
      (0xC0 ≤ o ∧ o ≤ 0xDF) ∨ (0xFA ≤ o ∧ o ≤ 0xFC) ∨ o = 0xFE) →
    decode ((0xE8 ||| g.code) :: o :: rest) = .illegal .registerOp) ∧
  (∀ (g : Reg) (o : Byte) (rest : List Byte), 4 ≤ g.code →
    (o = 0x02 ∨ o = 0x03 ∨ o = 0x06 ∨ o = 0x07 ∨ (0x10 ≤ o ∧ o ≤ 0x17) ∨ (0x30 ≤ o ∧ o ≤ 0x3F) ∨
      (0xFA ≤ o ∧ o ≤ 0xFC) ∨ o = 0xFE) →
    decode ((0xE8 ||| g.code) :: o :: rest) = .illegal .pairOperand) ∧
  (∀ (g : Reg) (rest : List Byte), g ≠ .a → decode ((0xE8 ||| g.code) :: 0x04 :: rest) = .illegal .retnOperand) ∧
  (∀ (o : Byte) (rest : List Byte), ¬ (o = 0xFA ∨ (0xFC ≤ o ∧ o ≤ 0xFF)) →
    decode (0xFF :: o :: rest) = .illegal .controlOp) ∧
  (∀ m : Mode, (∀ k, k ≤ m.ext.length → decode ((0xE0 ||| m.code) :: m.ext.take k) = .more) ∧
    ∀ k, k ≤ m.ext.length → decode ((0xF0 ||| m.code) :: m.ext.take k) = .more) ∧
  (∀ g : Reg, decode [0xE8 ||| g.code] = .more) ∧ decode [0xFF] = .more ∧ decode [] = .more

/-- The decoder never asks for a fifth byte, and what it reads from the first bytes of a longer sequence it reads from
the whole: it needs no byte past the instruction (R94). -/
def Obligations.DecodeNeedsAtMostFourBytes : Prop :=
  (∀ bytes : List Byte, 4 ≤ bytes.length → decode bytes ≠ .more) ∧
  ∀ (bytes rest more : List Byte) (i : Instr), decode bytes = .instr i rest →
    decode (bytes ++ more) = .instr i (rest ++ more)

/-- Some words of the encoding tables, one of each decode group (R86 to R91): what they decode to. -/
def Obligations.DecodeWords : Prop :=
  decode [0x24, 0x60, 0xCD, 0xAB] = .instr (.ldwXMn 0x60 0xABCD) [] ∧
  decode [0x26, 0x20, 0x21] = .instr (.ldXY 0x21 0x20) [] ∧
  decode [0xE4, 0x03, 0x79] = .instr (.addASrc (.hlDisp 0x03)) [] ∧
  decode [0xF7, 0x56] = .instr (.ldDstR .hlDec .l) [] ∧
  decode [0xEB, 0x12] = .instr (.xchRrGg .de .hl) [] ∧
  decode [0xE8, 0x83] = .instr (.setPpG .hl .a) [] ∧
  decode [0xFF, 0xFD, 0x20] = .instr (.callp 0x20) []

/-! ## Registers, the program status word, memory and the stack -/

/-- R24. The pair law, in every bank and with or without `BANK_ALIAS`: a pair is its high register over its low one;
writing it writes the two halves and no other register. -/
def Obligations.RegisterPairs : Prop :=
  ∀ (s : State) (p : Pair) (v : Word),
    s.pair p = s.reg p.hi ++ s.reg p.lo ∧
    (s.setPair p v).pair p = v ∧
    (s.setPair p v).reg p.lo = v.extractLsb' 0 8 ∧
    (s.setPair p v).reg p.hi = v.extractLsb' 8 8 ∧
    SameBut s (s.setPair p v) [p.lo, p.hi] [] []

/-- R28 and R29. The byte that the flags make, with the bank selector in its low nibble where `PSW_LOW_NIBBLE` is RBS,
and what writing it does: the four flags, the bank selector where the low nibble is RBS, and nothing else. -/
def Obligations.ProgramStatusWord : Prop :=
  ∀ (s : State) (v : Byte),
    (s.getPsw.toNat = 128 * s.flags.jf.toNat + 64 * s.flags.zf.toNat + 32 * s.flags.cf.toNat + 16 * s.flags.hf.toNat +
      (match s.params.pswLow with | .zero => 0 | .rbs => s.rbs.toNat)) ∧
    s.setPsw v = { s with
      flags := { jf := v.getLsbD 7, zf := v.getLsbD 6, cf := v.getLsbD 5, hf := v.getLsbD 4 }
      rbs := match s.params.pswLow with | .zero => s.rbs | .rbs => BitVec.ofNat 4 v.toNat }

/-- R57 to R60. The stack primitives: pushes decrement then store, pops load then increment, words lie low byte first.
That a word pushed is the word popped, which R60 derives, is in SaveAndRestore. -/
def Obligations.StackPrimitives : Prop :=
  ∀ s : State, s.Plain →
    (∀ v : Byte, (s.push8 v).peek (s.sp - 1) = v ∧
      SameBut { s with sp := s.sp - 1 } (s.push8 v) [] [s.sp - 1] [.write (s.sp - 1) v]) ∧
    (s.pop8.1 = s.peek s.sp ∧ SameBut { s with sp := s.sp + 1 } s.pop8.2 [] [] [.read s.sp (s.peek s.sp)]) ∧
    (∀ v : Word, (s.push16 v).peek (s.sp - 2) = v.extractLsb' 0 8 ∧ (s.push16 v).peek (s.sp - 1) = v.extractLsb' 8 8 ∧
      SameBut { s with sp := s.sp - 2 } (s.push16 v) [] [s.sp - 1, s.sp - 2]
        [.write (s.sp - 1) (v.extractLsb' 8 8), .write (s.sp - 2) (v.extractLsb' 0 8)]) ∧
    (s.pop16.1 = s.peek (s.sp + 1) ++ s.peek s.sp ∧
      SameBut { s with sp := s.sp + 2 } s.pop16.2 [] []
        [.read s.sp (s.peek s.sp), .read (s.sp + 1) (s.peek (s.sp + 1))])

/-- R52, R54 and R63. Bus accesses, with devices and aliases as they may be: a read of plain memory answers the byte
last written; a read that a device serves answers a free value, the next draw; a write to plain memory changes that byte
and no other, a write to a device none. A word is its low byte at a, then its high byte at a + 1, modulo 65536. The
clauses on an address that a device serves (a read there answers `Config.busAnswer` of the draw counter, a write there
changes no byte) are the model's reading of R63 (log 10, DEDUCED); that no byte of the bank storage is served is the
model's choice (log 14, DESIGN CHOICE). -/
def Obligations.BusAccesses : Prop :=
  ∀ (s : State) (a : Word) (v : Byte) (w : Word),
    (s.served a = false → (s.memRead a).1 = s.peek a ∧ SameBut s (s.memRead a).2 [] [] [.read a (s.peek a)]) ∧
    (s.served a = true → (s.memRead a).1 = Config.busAnswer s.draws ∧
      SameBut { s with draws := s.draws + 1 } (s.memRead a).2 [] [] [.read a (Config.busAnswer s.draws)]) ∧
    (s.served a = false → (s.memWrite a v).peek a = v ∧ ((s.memWrite a v).memRead a).1 = v) ∧
    (∀ b : Word, b ≠ a ∨ s.served a = true → (s.memWrite a v).peek b = s.peek b) ∧
    ((s.memRead16 a).1 = (((s.memRead a).2.memRead (a + 1)).1 ++ (s.memRead a).1) ∧
      (s.memRead16 a).2 = ((s.memRead a).2.memRead (a + 1)).2) ∧
    s.memWrite16 a w = (s.memWrite a (w.extractLsb' 0 8)).memWrite (a + 1) (w.extractLsb' 8 8)

/-- R23. With `BANK_ALIAS = none` no memory access writes a register and no register write is seen in memory. With
`BANK_ALIAS = B`, register i of bank n and the byte at B + 8n + i are one cell: each reads what was written to the
other, and no other register and no other byte changes. -/
def Obligations.BankAlias : Prop :=
  ∀ (s : State) (n : BitVec 4) (r : Reg) (v : Byte),
    (s.params.bankAlias = none → ∀ (a : Word) (k : BitVec 4) (q : Reg),
      (s.memWrite a v).bankReg k q = s.bankReg k q ∧ (s.memRead a).2.bankReg k q = s.bankReg k q ∧
      (s.setBankReg n r v).peek a = s.peek a ∧
      (s.setBankReg n r v).bankReg k q = if k = n ∧ q = r then v else s.bankReg k q) ∧
    ∀ base : Word, s.params.bankAlias = some base →
      (bankAddr base n r).toNat = (base.toNat + 8 * n.toNat + r.code.toNat) % 65536 ∧
      s.bankReg n r = s.peek (bankAddr base n r) ∧
      (s.memWrite (bankAddr base n r) v).bankReg n r = v ∧
      (∀ (k : BitVec 4) (q : Reg), ¬ (k = n ∧ q = r) →
        (s.memWrite (bankAddr base n r) v).bankReg k q = s.bankReg k q) ∧
      (s.setBankReg n r v).peek (bankAddr base n r) = v ∧ (s.setBankReg n r v).bankReg n r = v ∧
      (∀ a : Word, a ≠ bankAddr base n r → (s.setBankReg n r v).peek a = s.peek a) ∧
      (∀ (k : BitVec 4) (q : Reg), ¬ (k = n ∧ q = r) → (s.setBankReg n r v).bankReg k q = s.bankReg k q)

/-- With `IMF_ALIAS = (a, b)`, a store of the core to `a` sets IMF to bit b of the byte stored, and a store elsewhere
leaves IMF; with `IMF_ALIAS = none` no store touches IMF (R243, the clauses on IMF_ALIAS). -/
def Obligations.ImfAlias : Prop :=
  ∀ (s : State) (a : Word) (v : Byte),
    (∀ (k : BitVec 3), s.params.imfAlias = some (a, k) → (s.memWrite a v).imf = v.getLsbD k.toNat) ∧
    (∀ (b : Word) (k : BitVec 3), s.params.imfAlias = some (b, k) → a ≠ b → (s.memWrite a v).imf = s.imf) ∧
    (s.params.imfAlias = none → (s.memWrite a v).imf = s.imf) ∧
    ∃ t, exec (.ldHlN v) s = .next t ∧ t.imf = (s.memWrite (s.pair .hl) v).imf

/-- R79 to R84. The eight addressing modes: the effective address, modulo 65536, and the side effect on HL of the last
two; the other six change nothing at all. -/
def Obligations.AddressingModes : Prop :=
  ∀ s : State,
    (∀ x : Byte, s.resolve (.direct x) = (x.setWidth 16, s)) ∧
    s.resolve .pcA = (s.start + 2 + (s.reg .a).setWidth 16, s) ∧
    s.resolve .de = (s.pair .de, s) ∧
    s.resolve .hl = (s.pair .hl, s) ∧
    (∀ d : Byte, s.resolve (.hlDisp d) = (BitVec.ofInt 16 ((s.pair .hl).toNat + d.toInt), s)) ∧
    s.resolve .hlC = (BitVec.ofInt 16 ((s.pair .hl).toNat + (s.reg .c).toInt), s) ∧
    ((s.resolve .hlInc).1 = s.pair .hl ∧ (s.resolve .hlInc).2.pair .hl = s.pair .hl + 1 ∧
      SameBut s (s.resolve .hlInc).2 [.l, .h] [] []) ∧
    ((s.resolve .hlDec).1 = s.pair .hl - 1 ∧ (s.resolve .hlDec).2.pair .hl = s.pair .hl - 1 ∧
      SameBut s (s.resolve .hlDec).2 [.l, .h] [] [])

/-! ## Transfers -/

/-- R97 to R100: ldAR, ldRA, ldRN, ldRG. -/
def Obligations.LoadRegister : Prop :=
  ∀ s : State,
    (∀ r : Reg, encode (.ldAR r) = [0x50 ||| r.code] ∧ ∃ t, exec (.ldAR r) s = .next t ∧ t.reg .a = s.reg r ∧
      SameBut { s with flags := { s.flags with jf := true, zf := decide (s.reg r = 0) } } t [.a] [] []) ∧
    (∀ r : Reg, encode (.ldRA r) = [0x58 ||| r.code] ∧ ∃ t, exec (.ldRA r) s = .next t ∧ t.reg r = s.reg .a ∧
      SameBut { s with flags := { s.flags with jf := true, zf := decide (s.reg .a = 0) } } t [r] [] []) ∧
    (∀ (r : Reg) (n : Byte), encode (.ldRN r n) = [0x30 ||| r.code, n] ∧
      ∃ t, exec (.ldRN r n) s = .next t ∧ t.reg r = n ∧
      SameBut { s with flags := { s.flags with jf := true, zf := decide (n = 0) } } t [r] [] []) ∧
    ∀ r g : Reg, encode (.ldRG r g) = [0xE8 ||| g.code, 0x58 ||| r.code] ∧
      ∃ t, exec (.ldRG r g) s = .next t ∧ t.reg r = s.reg g ∧
      SameBut { s with flags := { s.flags with jf := true, zf := decide (s.reg g = 0) } } t [r] [] []

/-- R101 to R103: ldAX, ldAHl, ldRSrc. In the last, the register is written after the side effect of the mode. -/
def Obligations.LoadByte : Prop :=
  ∀ s : State, s.Plain →
    (∀ x : Byte, encode (.ldAX x) = [0x22, x] ∧
      ∃ t, exec (.ldAX x) s = .next t ∧ t.reg .a = s.peek (x.setWidth 16) ∧
      SameBut { s with flags := { s.flags with jf := true, zf := decide (s.peek (x.setWidth 16) = 0) } } t
        [.a] [] [.read (x.setWidth 16) (s.peek (x.setWidth 16))]) ∧
    (encode .ldAHl = [0x23] ∧ ∃ t, exec .ldAHl s = .next t ∧ t.reg .a = s.peek (s.pair .hl) ∧
      SameBut { s with flags := { s.flags with jf := true, zf := decide (s.peek (s.pair .hl) = 0) } } t
        [.a] [] [.read (s.pair .hl) (s.peek (s.pair .hl))]) ∧
    ∀ (r : Reg) (m : Mode),
      let a := (s.resolve m).1
      let u := (s.resolve m).2
      encode (.ldRSrc r m) = (0xE0 ||| m.code) :: (m.ext ++ [0x58 ||| r.code]) ∧
      ∃ t, exec (.ldRSrc r m) s = .next t ∧ t.reg r = s.peek a ∧
      SameBut { u with flags := { s.flags with jf := true, zf := decide (s.peek a = 0) } } t
        [r] [] [.read a (s.peek a)]

/-- R104 to R109, R119 and R120: ldXA, ldHlA, ldDstR, ldXN, ldHlN, ldDstN, clrX, clrHl. One write, no read; the register
stored by LD (dst),r is read after the side effect of the mode. -/
def Obligations.StoreByte : Prop :=
  ∀ s : State, s.Plain →
    (∀ x : Byte, encode (.ldXA x) = [0x2A, x] ∧
      ∃ t, exec (.ldXA x) s = .next t ∧ t.peek (x.setWidth 16) = s.reg .a ∧
      SameBut { s with flags := { s.flags with jf := true } } t [] [x.setWidth 16] [.write (x.setWidth 16) (s.reg .a)]) ∧
    (encode .ldHlA = [0x2B] ∧ ∃ t, exec .ldHlA s = .next t ∧ t.peek (s.pair .hl) = s.reg .a ∧
      SameBut { s with flags := { s.flags with jf := true } } t [] [s.pair .hl] [.write (s.pair .hl) (s.reg .a)]) ∧
    (∀ (m : Mode) (r : Reg),
      let a := (s.resolve m).1
      let u := (s.resolve m).2
      encode (.ldDstR m r) = (0xF0 ||| m.code) :: (m.ext ++ [0x50 ||| r.code]) ∧
      ∃ t, exec (.ldDstR m r) s = .next t ∧ t.peek a = u.reg r ∧
      SameBut { u with flags := { s.flags with jf := true } } t [] [a] [.write a (u.reg r)]) ∧
    (∀ x n : Byte, encode (.ldXN x n) = [0x2C, x, n] ∧
      ∃ t, exec (.ldXN x n) s = .next t ∧ t.peek (x.setWidth 16) = n ∧
      SameBut { s with flags := { s.flags with jf := true } } t [] [x.setWidth 16] [.write (x.setWidth 16) n]) ∧
    (∀ n : Byte, encode (.ldHlN n) = [0x2D, n] ∧ ∃ t, exec (.ldHlN n) s = .next t ∧ t.peek (s.pair .hl) = n ∧
      SameBut { s with flags := { s.flags with jf := true } } t [] [s.pair .hl] [.write (s.pair .hl) n]) ∧
    (∀ (m : Mode) (n : Byte),
      let a := (s.resolve m).1
      let u := (s.resolve m).2
      encode (.ldDstN m n) = (0xF0 ||| m.code) :: (m.ext ++ [0x2C, n]) ∧
      ∃ t, exec (.ldDstN m n) s = .next t ∧ t.peek a = n ∧
      SameBut { u with flags := { s.flags with jf := true } } t [] [a] [.write a n]) ∧
    (∀ x : Byte, encode (.clrX x) = [0x2E, x] ∧ ∃ t, exec (.clrX x) s = .next t ∧ t.peek (x.setWidth 16) = 0 ∧
      SameBut { s with flags := { s.flags with jf := true } } t [] [x.setWidth 16] [.write (x.setWidth 16) 0]) ∧
    (encode .clrHl = [0x2F] ∧ ∃ t, exec .clrHl s = .next t ∧ t.peek (s.pair .hl) = 0 ∧
      SameBut { s with flags := { s.flags with jf := true } } t [] [s.pair .hl] [.write (s.pair .hl) 0])

/-- R110 to R112: ldXY, ldXSrc, ldHlSrc. One read, then one write; LD (HL),(src) reads HL after the side effect. -/
def Obligations.MoveByte : Prop :=
  ∀ s : State, s.Plain →
    (∀ x y : Byte, encode (.ldXY x y) = [0x26, y, x] ∧
      ∃ t, exec (.ldXY x y) s = .next t ∧ t.peek (x.setWidth 16) = s.peek (y.setWidth 16) ∧
      SameBut { s with flags := { s.flags with jf := true } } t [] [x.setWidth 16]
        [.read (y.setWidth 16) (s.peek (y.setWidth 16)), .write (x.setWidth 16) (s.peek (y.setWidth 16))]) ∧
    (∀ (x : Byte) (m : Mode),
      let a := (s.resolve m).1
      let u := (s.resolve m).2
      encode (.ldXSrc x m) = (0xE0 ||| m.code) :: (m.ext ++ [0x26, x]) ∧
      ∃ t, exec (.ldXSrc x m) s = .next t ∧ t.peek (x.setWidth 16) = s.peek a ∧
      SameBut { u with flags := { s.flags with jf := true } } t [] [x.setWidth 16]
        [.read a (s.peek a), .write (x.setWidth 16) (s.peek a)]) ∧
    ∀ m : Mode,
      let a := (s.resolve m).1
      let u := (s.resolve m).2
      encode (.ldHlSrc m) = (0xE0 ||| m.code) :: (m.ext ++ [0x27]) ∧
      ∃ t, exec (.ldHlSrc m) s = .next t ∧ t.peek (u.pair .hl) = s.peek a ∧
      SameBut { u with flags := { s.flags with jf := true } } t [] [u.pair .hl]
        [.read a (s.peek a), .write (u.pair .hl) (s.peek a)]

/-- R113, R114 and R130: ldRrMn, ldRrGg, ldGgSp. -/
def Obligations.LoadPair : Prop :=
  ∀ s : State,
    (∀ (rr : Pair) (n m : Byte), encode (.ldRrMn rr (m ++ n)) = [0x14 ||| rr.code, n, m] ∧
      ∃ t, exec (.ldRrMn rr (m ++ n)) s = .next t ∧ t.pair rr = m ++ n ∧
      SameBut { s with flags := { s.flags with jf := true } } t [rr.lo, rr.hi] [] []) ∧
    (∀ rr gg : Pair, encode (.ldRrGg rr gg) = [0xE8 ||| gg.code, 0x14 ||| rr.code] ∧
      ∃ t, exec (.ldRrGg rr gg) s = .next t ∧ t.pair rr = s.pair gg ∧
      SameBut { s with flags := { s.flags with jf := true } } t [rr.lo, rr.hi] [] []) ∧
    ∀ gg : Pair, encode (.ldGgSp gg) = [0xE8 ||| gg.code, 0xFB] ∧
      ∃ t, exec (.ldGgSp gg) s = .next t ∧ t.pair gg = s.sp ∧
      SameBut { s with flags := { s.flags with jf := true } } t [gg.lo, gg.hi] [] []

/-- R115: ldRrSrc. The low byte from the effective address, then the high byte from the next address; the pair is written
after the side effect of the mode. -/
def Obligations.LoadWord : Prop :=
  ∀ (s : State) (rr : Pair) (m : Mode), s.Plain →
    let a := (s.resolve m).1
    let u := (s.resolve m).2
    encode (.ldRrSrc rr m) = (0xE0 ||| m.code) :: (m.ext ++ [0x14 ||| rr.code]) ∧
    ∃ t, exec (.ldRrSrc rr m) s = .next t ∧ t.pair rr = s.peek (a + 1) ++ s.peek a ∧
    SameBut { u with flags := { s.flags with jf := true } } t [rr.lo, rr.hi] []
      [.read a (s.peek a), .read (a + 1) (s.peek (a + 1))]

/-- R116 to R118: ldDstRr, ldwXMn, ldwHlMn. The low byte first, the high byte to the next address modulo 65536; the pair
stored by LD (dst),rr is read after the side effect of the mode. -/
def Obligations.StoreWord : Prop :=
  ∀ s : State, s.Plain →
    (∀ (m : Mode) (rr : Pair),
      let a := (s.resolve m).1
      let u := (s.resolve m).2
      encode (.ldDstRr m rr) = (0xF0 ||| m.code) :: (m.ext ++ [0x10 ||| rr.code]) ∧
      ∃ t, exec (.ldDstRr m rr) s = .next t ∧ t.peek a = u.reg rr.lo ∧ t.peek (a + 1) = u.reg rr.hi ∧
      SameBut { u with flags := { s.flags with jf := true } } t [] [a, a + 1]
        [.write a (u.reg rr.lo), .write (a + 1) (u.reg rr.hi)]) ∧
    (∀ x n m : Byte, encode (.ldwXMn x (m ++ n)) = [0x24, x, n, m] ∧
      ∃ t, exec (.ldwXMn x (m ++ n)) s = .next t ∧
      t.peek (x.setWidth 16) = n ∧ t.peek (x.setWidth 16 + 1) = m ∧
      SameBut { s with flags := { s.flags with jf := true } } t [] [x.setWidth 16, x.setWidth 16 + 1]
        [.write (x.setWidth 16) n, .write (x.setWidth 16 + 1) m]) ∧
    ∀ n m : Byte, encode (.ldwHlMn (m ++ n)) = [0x25, n, m] ∧
      ∃ t, exec (.ldwHlMn (m ++ n)) s = .next t ∧ t.peek (s.pair .hl) = n ∧ t.peek (s.pair .hl + 1) = m ∧
      SameBut { s with flags := { s.flags with jf := true } } t [] [s.pair .hl, s.pair .hl + 1]
        [.write (s.pair .hl) n, .write (s.pair .hl + 1) m]

/-- R121 to R123: xchRG, xchRrGg, xchRSrc. With memory there is one read, then one write at the same address, and the
register is read and written after the side effect of the mode. -/
def Obligations.Exchange : Prop :=
  ∀ s : State,
    (∀ r g : Reg, encode (.xchRG r g) = [0xE8 ||| g.code, 0xA8 ||| r.code] ∧
      ∃ t, exec (.xchRG r g) s = .next t ∧ t.reg r = s.reg g ∧ t.reg g = s.reg r ∧
      SameBut { s with flags := { s.flags with jf := true } } t [r, g] [] []) ∧
    (∀ rr gg : Pair, encode (.xchRrGg rr gg) = [0xE8 ||| gg.code, 0x10 ||| rr.code] ∧
      ∃ t, exec (.xchRrGg rr gg) s = .next t ∧ t.pair rr = s.pair gg ∧ t.pair gg = s.pair rr ∧
      SameBut { s with flags := { s.flags with jf := true } } t [rr.lo, rr.hi, gg.lo, gg.hi] [] []) ∧
    ∀ (r : Reg) (m : Mode), s.Plain →
      let a := (s.resolve m).1
      let u := (s.resolve m).2
      encode (.xchRSrc r m) = (0xE0 ||| m.code) :: (m.ext ++ [0xA8 ||| r.code]) ∧
      ∃ t, exec (.xchRSrc r m) s = .next t ∧ t.reg r = s.peek a ∧ t.peek a = u.reg r ∧
      SameBut { u with flags := { s.flags with jf := true } } t [r] [a] [.read a (s.peek a), .write a (u.reg r)]

/-- R124 and R125: pushGg, popGg. -/
def Obligations.PushPopPair : Prop :=
  ∀ (s : State) (gg : Pair), s.Plain →
    (encode (.pushGg gg) = [0xE8 ||| gg.code, 0x07] ∧
      ∃ t, exec (.pushGg gg) s = .next t ∧ t.peek (s.sp - 1) = s.reg gg.hi ∧ t.peek (s.sp - 2) = s.reg gg.lo ∧
      SameBut { s with sp := s.sp - 2 } t [] [s.sp - 1, s.sp - 2]
        [.write (s.sp - 1) (s.reg gg.hi), .write (s.sp - 2) (s.reg gg.lo)]) ∧
    (encode (.popGg gg) = [0xE8 ||| gg.code, 0x06] ∧
      ∃ t, exec (.popGg gg) s = .next t ∧ t.pair gg = s.peek (s.sp + 1) ++ s.peek s.sp ∧
      SameBut { s with sp := s.sp + 2 } t [gg.lo, gg.hi] []
        [.read s.sp (s.peek s.sp), .read (s.sp + 1) (s.peek (s.sp + 1))])

/-- R126 and R127: pushPsw, popPsw; and popping what was pushed restores the flags and the bank selector. -/
def Obligations.PushPopPsw : Prop :=
  ∀ s : State, s.Plain →
    (encode .pushPsw = [0x07] ∧ ∃ t, exec .pushPsw s = .next t ∧ t.peek (s.sp - 1) = s.getPsw ∧
      SameBut { s with sp := s.sp - 1 } t [] [s.sp - 1] [.write (s.sp - 1) s.getPsw] ∧
      ∃ w, exec .popPsw t = .next w ∧ w.flags = s.flags ∧ w.rbs = s.rbs ∧ w.sp = s.sp) ∧
    (encode .popPsw = [0x06] ∧ ∃ t, exec .popPsw s = .next t ∧
      SameBut { s with
        sp := s.sp + 1
        flags := flagsOfPsw (s.peek s.sp)
        rbs := s.bankAfterPsw (s.peek s.sp) } t
        [] [] [.read s.sp (s.peek s.sp)])

/-- R128 and R129: ldSpMn, ldSpGg. -/
def Obligations.LoadStackPointer : Prop :=
  ∀ s : State,
    (∀ n m : Byte, encode (.ldSpMn (m ++ n)) = [0xFF, 0xFA, n, m] ∧
      ∃ t, exec (.ldSpMn (m ++ n)) s = .next t ∧
      SameBut { s with sp := m ++ n, flags := { s.flags with jf := true } } t [] [] []) ∧
    ∀ gg : Pair, encode (.ldSpGg gg) = [0xE8 ||| gg.code, 0xFA] ∧
      ∃ t, exec (.ldSpGg gg) s = .next t ∧
      SameBut { s with sp := s.pair gg, flags := { s.flags with jf := true } } t [] [] []

/-! ## The ALU -/

/-- R132 to R139: what ADDC, ADD, SUBB, SUB, AND, XOR, OR and CMP compute on bytes, with the sum on nine bits and the
difference on the integers. -/
def Obligations.AluFunctions : Prop :=
  ∀ (f : Flags) (a b : Byte),
    (let s : BitVec 9 := a.setWidth 9 + b.setWidth 9 + (BitVec.ofBool f.cf).setWidth 9
     alu8 .addc f a b = (s.setWidth 8,
      { jf := s.getLsbD 8, zf := decide (s.setWidth 8 = (0 : Byte)), cf := s.getLsbD 8,
        hf := decide ((a &&& 0x0F).toNat + (b &&& 0x0F).toNat + f.cf.toNat > 0xF) })) ∧
    (let s : BitVec 9 := a.setWidth 9 + b.setWidth 9
     alu8 .add f a b = (s.setWidth 8,
      { jf := s.getLsbD 8, zf := decide (s.setWidth 8 = (0 : Byte)), cf := s.getLsbD 8,
        hf := decide ((a &&& 0x0F).toNat + (b &&& 0x0F).toNat > 0xF) })) ∧
    (let t : Int := (a.toNat : Int) - b.toNat - f.cf.toNat
     alu8 .subb f a b = (BitVec.ofInt 8 t,
      { jf := decide (t < 0), zf := decide (t % 256 = 0), cf := decide (t < 0),
        hf := decide (((a &&& 0x0F).toNat : Int) - (b &&& 0x0F).toNat - f.cf.toNat < 0) })) ∧
    (let t : Int := (a.toNat : Int) - b.toNat
     alu8 .sub f a b = (BitVec.ofInt 8 t,
      { jf := decide (a < b), zf := decide (t % 256 = 0), cf := decide (a < b),
        hf := decide (a &&& 0x0F < b &&& 0x0F) })) ∧
    alu8 .and f a b = (a &&& b, { f with jf := decide (a &&& b = 0), zf := decide (a &&& b = 0) }) ∧
    alu8 .xor f a b = (a ^^^ b, { f with jf := decide (a ^^^ b = 0), zf := decide (a ^^^ b = 0) }) ∧
    alu8 .or f a b = (a ||| b, { f with jf := decide (a ||| b = 0), zf := decide (a ||| b = 0) }) ∧
    (alu8 .cmp f a b).2 =
      { jf := decide (a = b), zf := decide (a = b), cf := decide (a < b), hf := decide (a &&& 0x0F < b &&& 0x0F) }

/-- R140: the same on 16 bits, with the carry out of bit 15 and the half-carry still out of bit 3. -/
def Obligations.AluFunctions16 : Prop :=
  ∀ (f : Flags) (a b : Word),
    (let s : BitVec 17 := a.setWidth 17 + b.setWidth 17 + (BitVec.ofBool f.cf).setWidth 17
     alu16 .addc f a b = (s.setWidth 16,
      { jf := s.getLsbD 16, zf := decide (s.setWidth 16 = (0 : Word)), cf := s.getLsbD 16,
        hf := decide ((a &&& 0x0F).toNat + (b &&& 0x0F).toNat + f.cf.toNat > 0xF) })) ∧
    (let s : BitVec 17 := a.setWidth 17 + b.setWidth 17
     alu16 .add f a b = (s.setWidth 16,
      { jf := s.getLsbD 16, zf := decide (s.setWidth 16 = (0 : Word)), cf := s.getLsbD 16,
        hf := decide ((a &&& 0x0F).toNat + (b &&& 0x0F).toNat > 0xF) })) ∧
    (let t : Int := (a.toNat : Int) - b.toNat - f.cf.toNat
     alu16 .subb f a b = (BitVec.ofInt 16 t,
      { jf := decide (t < 0), zf := decide (t % 65536 = 0), cf := decide (t < 0),
        hf := decide (((a &&& 0x0F).toNat : Int) - (b &&& 0x0F).toNat - f.cf.toNat < 0) })) ∧
    (let t : Int := (a.toNat : Int) - b.toNat
     alu16 .sub f a b = (BitVec.ofInt 16 t,
      { jf := decide (a < b), zf := decide (t % 65536 = 0), cf := decide (a < b),
        hf := decide (a &&& 0x0F < b &&& 0x0F) })) ∧
    alu16 .and f a b = (a &&& b, { f with jf := decide (a &&& b = 0), zf := decide (a &&& b = 0) }) ∧
    alu16 .xor f a b = (a ^^^ b, { f with jf := decide (a ^^^ b = 0), zf := decide (a ^^^ b = 0) }) ∧
    alu16 .or f a b = (a ||| b, { f with jf := decide (a ||| b = 0), zf := decide (a ||| b = 0) }) ∧
    (alu16 .cmp f a b).2 =
      { jf := decide (a = b), zf := decide (a = b), cf := decide (a < b), hf := decide (a &&& 0x0F < b &&& 0x0F) }

/-- R141 and R144 to R146: the eight operations (op is the number k of R76) in the forms A,n A,g g,A and g,n. That is
addcAN to cmpAN, addcAG to cmpAG, addcGA to cmpGA and addcGN to cmpGN. CMP writes its flags only. -/
def Obligations.AluRegister : Prop :=
  ∀ (s : State) (k : BitVec 3),
    let op := AluOp.ofField k
    (∀ n : Byte, encode (aluAN op n) = [0x70 ||| k.setWidth 8, n] ∧ ∃ t, exec (aluAN op n) s = .next t ∧
      t.reg .a = (if op = .cmp then s.reg .a else (alu8 op s.flags (s.reg .a) n).1) ∧
      SameBut { s with flags := (alu8 op s.flags (s.reg .a) n).2 } t [.a] [] []) ∧
    (∀ g : Reg, encode (aluAG op g) = [0xE8 ||| g.code, 0x60 ||| k.setWidth 8] ∧ ∃ t, exec (aluAG op g) s = .next t ∧
      t.reg .a = (if op = .cmp then s.reg .a else (alu8 op s.flags (s.reg .a) (s.reg g)).1) ∧
      SameBut { s with flags := (alu8 op s.flags (s.reg .a) (s.reg g)).2 } t [.a] [] []) ∧
    (∀ g : Reg, encode (aluGA op g) = [0xE8 ||| g.code, 0x68 ||| k.setWidth 8] ∧ ∃ t, exec (aluGA op g) s = .next t ∧
      t.reg g = (if op = .cmp then s.reg g else (alu8 op s.flags (s.reg g) (s.reg .a)).1) ∧
      SameBut { s with flags := (alu8 op s.flags (s.reg g) (s.reg .a)).2 } t [g] [] []) ∧
    ∀ (g : Reg) (n : Byte), encode (aluGN op g n) = [0xE8 ||| g.code, 0x70 ||| k.setWidth 8, n] ∧
      ∃ t, exec (aluGN op g n) s = .next t ∧
      t.reg g = (if op = .cmp then s.reg g else (alu8 op s.flags (s.reg g) n).1) ∧
      SameBut { s with flags := (alu8 op s.flags (s.reg g) n).2 } t [g] [] []

/-- R142 and R143: the eight operations on A and a byte of memory. That is addcAX to cmpAX and addcASrc to cmpASrc. One
read, no write. -/
def Obligations.AluMemoryOperand : Prop :=
  ∀ (s : State) (k : BitVec 3), s.Plain →
    let op := AluOp.ofField k
    (∀ x : Byte,
      let b := s.peek (x.setWidth 16)
      encode (aluAX op x) = [0x78 ||| k.setWidth 8, x] ∧ ∃ t, exec (aluAX op x) s = .next t ∧
      t.reg .a = (if op = .cmp then s.reg .a else (alu8 op s.flags (s.reg .a) b).1) ∧
      SameBut { s with flags := (alu8 op s.flags (s.reg .a) b).2 } t [.a] [] [.read (x.setWidth 16) b]) ∧
    ∀ m : Mode,
      let a := (s.resolve m).1
      let u := (s.resolve m).2
      let b := s.peek a
      encode (aluASrc op m) = (0xE0 ||| m.code) :: (m.ext ++ [0x78 ||| k.setWidth 8]) ∧
      ∃ t, exec (aluASrc op m) s = .next t ∧
      t.reg .a = (if op = .cmp then s.reg .a else (alu8 op s.flags (s.reg .a) b).1) ∧
      SameBut { u with flags := (alu8 op s.flags (s.reg .a) b).2 } t [.a] [] [.read a b]

/-- R147 to R149: the eight operations on a byte of memory, with an immediate or with the byte at HL as it is after the
side effect, and MCMP. That is addcSrcN to cmpSrcN, addcSrcHl to cmpSrcHl and mcmpSrcN. A read-modify-write at one
address; CMP and MCMP write nothing, and neither does a register change but HL by the mode. -/
def Obligations.AluMemoryResult : Prop :=
  ∀ (s : State) (m : Mode), s.Plain →
    let a := (s.resolve m).1
    let u := (s.resolve m).2
    let v := s.peek a
    (∀ (k : BitVec 3) (n : Byte),
      let op := AluOp.ofField k
      let r := alu8 op s.flags v n
      encode (aluSrcN op m n) = (0xE0 ||| m.code) :: (m.ext ++ [0x68 ||| k.setWidth 8, n]) ∧
      ∃ t, exec (aluSrcN op m n) s = .next t ∧ t.peek a = (if op = .cmp then v else r.1) ∧
      SameBut { u with flags := r.2 } t [] [a]
        (if op = .cmp then [.read a v] else [.read a v, .write a r.1])) ∧
    (∀ k : BitVec 3,
      let op := AluOp.ofField k
      let h := u.pair .hl
      let b := s.peek h
      let r := alu8 op s.flags v b
      encode (aluSrcHl op m) = (0xE0 ||| m.code) :: (m.ext ++ [0x60 ||| k.setWidth 8]) ∧
      ∃ t, exec (aluSrcHl op m) s = .next t ∧ t.peek a = (if op = .cmp then v else r.1) ∧
      SameBut { u with flags := r.2 } t [] [a]
        (if op = .cmp then [.read a v, .read h b] else [.read a v, .read h b, .write a r.1])) ∧
    ∀ n : Byte, encode (.mcmpSrcN m n) = (0xE0 ||| m.code) :: (m.ext ++ [0x2F, n]) ∧
      ∃ t, exec (.mcmpSrcN m n) s = .next t ∧
      SameBut { u with flags := (alu8 .cmp s.flags v n).2 } t [] [] [.read a v]

/-- R150 and R151: the eight operations on WA and a pair, and on a pair and an immediate. That is addcWaGg to cmpWaGg and
addcGgMn to cmpGgMn. -/
def Obligations.AluPair : Prop :=
  ∀ (s : State) (k : BitVec 3) (gg : Pair),
    let op := AluOp.ofField k
    (encode (aluWaGg op gg) = [0xE8 ||| gg.code, 0x30 ||| k.setWidth 8] ∧ ∃ t, exec (aluWaGg op gg) s = .next t ∧
      t.pair .wa = (if op = .cmp then s.pair .wa else (alu16 op s.flags (s.pair .wa) (s.pair gg)).1) ∧
      SameBut { s with flags := (alu16 op s.flags (s.pair .wa) (s.pair gg)).2 } t [.a, .w] [] []) ∧
    ∀ n m : Byte, encode (aluGgMn op gg (m ++ n)) = [0xE8 ||| gg.code, 0x38 ||| k.setWidth 8, n, m] ∧
      ∃ t, exec (aluGgMn op gg (m ++ n)) s = .next t ∧
      t.pair gg = (if op = .cmp then s.pair gg else (alu16 op s.flags (s.pair gg) (m ++ n)).1) ∧
      SameBut { s with flags := (alu16 op s.flags (s.pair gg) (m ++ n)).2 } t [gg.lo, gg.hi] [] []

/-- R153 to R156: incR, decR, incRr, decRr. JF is the carry or the borrow out; CF and HF are unchanged. -/
def Obligations.IncDecRegister : Prop :=
  ∀ s : State,
    (∀ r : Reg, encode (.incR r) = [0x60 ||| r.code] ∧
      ∃ t, exec (.incR r) s = .next t ∧ (t.reg r).toNat = ((s.reg r).toNat + 1) % 256 ∧
      SameBut { s with flags := { s.flags with zf := decide (t.reg r = 0), jf := decide (s.reg r = 0xFF) } } t [r] [] []) ∧
    (∀ r : Reg, encode (.decR r) = [0x68 ||| r.code] ∧
      ∃ t, exec (.decR r) s = .next t ∧ (t.reg r).toNat = ((s.reg r).toNat + 255) % 256 ∧
      SameBut { s with flags := { s.flags with zf := decide (t.reg r = 0), jf := decide (s.reg r = 0) } } t [r] [] []) ∧
    (∀ rr : Pair, encode (.incRr rr) = [0x10 ||| rr.code] ∧
      ∃ t, exec (.incRr rr) s = .next t ∧ (t.pair rr).toNat = ((s.pair rr).toNat + 1) % 65536 ∧
      SameBut { s with flags := { s.flags with zf := decide (t.pair rr = 0), jf := decide (s.pair rr = 0xFFFF) } } t
        [rr.lo, rr.hi] [] []) ∧
    ∀ rr : Pair, encode (.decRr rr) = [0x18 ||| rr.code] ∧
      ∃ t, exec (.decRr rr) s = .next t ∧ (t.pair rr).toNat = ((s.pair rr).toNat + 65535) % 65536 ∧
      SameBut { s with flags := { s.flags with zf := decide (t.pair rr = 0), jf := decide (s.pair rr = 0) } } t
        [rr.lo, rr.hi] [] []

/-- R157 to R162: incX, incHl, incSrc, decX, decHl, decSrc. One read and one write of one byte. -/
def Obligations.IncDecMemory : Prop :=
  ∀ s : State, s.Plain →
    let inc (i : Instr) (u : State) (a : Word) : Prop :=
      ∃ t, exec i s = .next t ∧ (t.peek a).toNat = ((s.peek a).toNat + 1) % 256 ∧
        SameBut { u with flags := { s.flags with zf := decide (t.peek a = 0), jf := decide (s.peek a = 0xFF) } } t
          [] [a] [.read a (s.peek a), .write a (t.peek a)]
    let dec (i : Instr) (u : State) (a : Word) : Prop :=
      ∃ t, exec i s = .next t ∧ (t.peek a).toNat = ((s.peek a).toNat + 255) % 256 ∧
        SameBut { u with flags := { s.flags with zf := decide (t.peek a = 0), jf := decide (s.peek a = 0) } } t
          [] [a] [.read a (s.peek a), .write a (t.peek a)]
    (∀ x : Byte, encode (.incX x) = [0x20, x] ∧ inc (.incX x) s (x.setWidth 16)) ∧
    (encode .incHl = [0x21] ∧ inc .incHl s (s.pair .hl)) ∧
    (∀ m : Mode, encode (.incSrc m) = (0xE0 ||| m.code) :: (m.ext ++ [0x20]) ∧
      inc (.incSrc m) (s.resolve m).2 (s.resolve m).1) ∧
    (∀ x : Byte, encode (.decX x) = [0x28, x] ∧ dec (.decX x) s (x.setWidth 16)) ∧
    (encode .decHl = [0x29] ∧ dec .decHl s (s.pair .hl)) ∧
    ∀ m : Mode, encode (.decSrc m) = (0xE0 ||| m.code) :: (m.ext ++ [0x28]) ∧
      dec (.decSrc m) (s.resolve m).2 (s.resolve m).1

/-- R163 and R164: mulWA, mulGg. The product is exact; ZF and JF are those of its high byte. -/
def Obligations.Multiply : Prop :=
  ∀ s : State,
    (encode .mulWA = [0x02] ∧ ∃ t, exec .mulWA s = .next t ∧
      (t.pair .wa).toNat = (s.reg .w).toNat * (s.reg .a).toNat ∧
      SameBut { s with flags := { s.flags with zf := decide (t.reg .w = 0), jf := decide (t.reg .w = 0) } } t
        [.a, .w] [] []) ∧
    ∀ gg : Pair, encode (.mulGg gg) = [0xE8 ||| gg.code, 0x02] ∧ ∃ t, exec (.mulGg gg) s = .next t ∧
      (t.pair gg).toNat = (s.reg gg.hi).toNat * (s.reg gg.lo).toNat ∧
      SameBut { s with flags := { s.flags with zf := decide (t.reg gg.hi = 0), jf := decide (t.reg gg.hi = 0) } } t
        [gg.lo, gg.hi] [] []

/-- R165 to R167: divWaC, divGgC. Where the divisor is not 0 and the quotient fits a byte, quotient, remainder and flags
are given; otherwise CF and JF are set and nothing is said of the two registers and of ZF, which are free values
(whatever the counter of draws is), while everything else is kept. -/
def Obligations.Divide : Prop :=
  ∀ s : State,
    let div (i : Instr) (gg : Pair) : Prop :=
      let d := (s.pair gg).toNat
      let c := (s.reg .c).toNat
      ∃ t, exec i s = .next t ∧
        (c ≠ 0 → d / c ≤ 0xFF →
          (t.reg gg.lo).toNat = d / c ∧ (t.reg gg.hi).toNat = d % c ∧
          SameBut { s with flags := { s.flags with cf := false, jf := false, zf := decide (d / c = 0) } } t
            [gg.lo, gg.hi] [] []) ∧
        (c = 0 ∨ 0xFF < d / c →
          SameBut { s with flags := { s.flags with cf := true, jf := true, zf := t.flags.zf }, draws := t.draws } t
            [gg.lo, gg.hi] [] [])
    (encode .divWaC = [0x03] ∧ div .divWaC .wa) ∧
    ∀ gg : Pair, encode (.divGgC gg) = [0xE8 ||| gg.code, 0x03] ∧ div (.divGgC gg) gg

/-- R168 to R173: daaA, daaG, dasA, dasG. -/
def Obligations.DecimalAdjust : Prop :=
  ∀ s : State,
    let corr (v : Byte) : Nat :=
      (if s.flags.hf = true ∨ v.toNat % 16 > 9 then 0x06 else 0) + (if s.flags.cf = true ∨ v.toNat > 0x99 then 0x60 else 0)
    let carry (v : Byte) : Bool := decide (s.flags.cf = true ∨ v.toNat > 0x99)
    let daa (i : Instr) (g : Reg) : Prop :=
      let v := s.reg g
      ∃ t, exec i s = .next t ∧ (t.reg g).toNat = (v.toNat + corr v) % 256 ∧
        SameBut { s with flags := { jf := carry v, zf := decide (t.reg g = 0), cf := carry v,
                                    hf := decide (v.toNat % 16 + corr v % 16 > 0xF) } } t [g] [] []
    let das (i : Instr) (g : Reg) : Prop :=
      let v := s.reg g
      ∃ t, exec i s = .next t ∧ (t.reg g).toNat = (v.toNat + 256 - corr v) % 256 ∧
        SameBut { s with flags := { jf := carry v, zf := decide (t.reg g = 0), cf := carry v,
                                    hf := decide (v.toNat % 16 < corr v % 16) } } t [g] [] []
    (encode .daaA = [0x0A] ∧ daa .daaA .a) ∧ (∀ g : Reg, encode (.daaG g) = [0xE8 ||| g.code, 0x0A] ∧ daa (.daaG g) g) ∧
    (encode .dasA = [0x0B] ∧ das .dasA .a) ∧ ∀ g : Reg, encode (.dasG g) = [0xE8 ||| g.code, 0x0B] ∧ das (.dasG g) g

/-- Decimal arithmetic (R13, R168, R171 with R132 and R134): on two bytes that each hold two decimal digits, ADDC followed
by DAA is the decimal sum with its carry, and SUBB followed by DAS is the decimal difference with its borrow, as two
decimal digits again. -/
def Obligations.DecimalArithmetic : Prop :=
  ∀ (f : Flags) (a b : Byte), isBcd a = true → isBcd b = true →
    (let r := alu8 .addc f a b
     let q := daa r.2 r.1
     isBcd q.1 = true ∧ bcdValue q.1 + 100 * q.2.cf.toNat = bcdValue a + bcdValue b + f.cf.toNat) ∧
    (let r := alu8 .subb f a b
     let q := das r.2 r.1
     isBcd q.1 = true ∧ bcdValue q.1 + bcdValue b + f.cf.toNat = bcdValue a + 100 * q.2.cf.toNat)

/-- R174 to R182: shlcA, shrcA, rolcA, rorcA and shlcG, shrcG, rolcG, rorcG, one bit at a time. -/
def Obligations.ShiftRotate : Prop :=
  ∀ s : State,
    let feed (out : Bool) : Nat := (if s.params.rotateThroughCarry = true then s.flags.cf else out).toNat
    let shifts (i : Instr) (g : Reg) (out : Bool) (r : Nat) : Prop :=
      ∃ t, exec i s = .next t ∧ (t.reg g).toNat = r ∧
        SameBut { s with flags := { s.flags with cf := out, zf := decide (r = 0), jf := out } } t [g] [] []
    let left (i : Instr) (g : Reg) : Prop :=
      shifts i g ((s.reg g).getLsbD 7) ((s.reg g).toNat * 2 % 256)
    let right (i : Instr) (g : Reg) : Prop :=
      shifts i g ((s.reg g).getLsbD 0) ((s.reg g).toNat / 2)
    let rotl (i : Instr) (g : Reg) : Prop :=
      shifts i g ((s.reg g).getLsbD 7) ((s.reg g).toNat * 2 % 256 + feed ((s.reg g).getLsbD 7))
    let rotr (i : Instr) (g : Reg) : Prop :=
      shifts i g ((s.reg g).getLsbD 0) ((s.reg g).toNat / 2 + 128 * feed ((s.reg g).getLsbD 0))
    (encode .shlcA = [0x1C] ∧ left .shlcA .a) ∧ (encode .shrcA = [0x1D] ∧ right .shrcA .a) ∧
    (encode .rolcA = [0x1E] ∧ rotl .rolcA .a) ∧ (encode .rorcA = [0x1F] ∧ rotr .rorcA .a) ∧
    ∀ g : Reg,
      (encode (.shlcG g) = [0xE8 ||| g.code, 0x1C] ∧ left (.shlcG g) g) ∧
      (encode (.shrcG g) = [0xE8 ||| g.code, 0x1D] ∧ right (.shrcG g) g) ∧
      (encode (.rolcG g) = [0xE8 ||| g.code, 0x1E] ∧ rotl (.rolcG g) g) ∧
      (encode (.rorcG g) = [0xE8 ||| g.code, 0x1F] ∧ rotr (.rorcG g) g)

/-- R183 to R186: swapA, swapG, roldASrc, rordASrc. -/
def Obligations.NibbleOperations : Prop :=
  ∀ s : State,
    (encode .swapA = [0x01] ∧ ∃ t, exec .swapA s = .next t ∧
      (t.reg .a).toNat = (s.reg .a).toNat % 16 * 16 + (s.reg .a).toNat / 16 ∧
      SameBut { s with flags := { s.flags with zf := decide (t.reg .a = 0), jf := true } } t [.a] [] []) ∧
    (∀ g : Reg, encode (.swapG g) = [0xE8 ||| g.code, 0x01] ∧ ∃ t, exec (.swapG g) s = .next t ∧
      (t.reg g).toNat = (s.reg g).toNat % 16 * 16 + (s.reg g).toNat / 16 ∧
      SameBut { s with flags := { s.flags with zf := decide (t.reg g = 0), jf := true } } t [g] [] []) ∧
    (∀ m : Mode, s.Plain →
      let p := (s.resolve m).1
      let u := (s.resolve m).2
      let v := (s.peek p).toNat
      let x := (s.reg .a).toNat
      (encode (.roldASrc m) = (0xE0 ||| m.code) :: (m.ext ++ [0x08]) ∧ ∃ t, exec (.roldASrc m) s = .next t ∧
        (t.peek p).toNat = v % 16 * 16 + x % 16 ∧ (t.reg .a).toNat = x / 16 * 16 + v / 16 ∧
        SameBut { u with flags := { s.flags with zf := decide (t.reg .a = 0), jf := true } } t
          [.a] [p] [.read p (s.peek p), .write p (t.peek p)]) ∧
      (encode (.rordASrc m) = (0xE0 ||| m.code) :: (m.ext ++ [0x09]) ∧ ∃ t, exec (.rordASrc m) s = .next t ∧
        (t.peek p).toNat = x % 16 * 16 + v / 16 ∧ (t.reg .a).toNat = x / 16 * 16 + v % 16 ∧
        SameBut { u with flags := { s.flags with zf := decide (t.reg .a = 0), jf := true } } t
          [.a] [p] [.read p (s.peek p), .write p (t.peek p)]))

/-! ## Bits and the carry flag -/

/-- R190 to R192: clrCf, setCf, cplCf. -/
def Obligations.CarryFlag : Prop :=
  ∀ s : State,
    (encode .clrCf = [0x0C] ∧ ∃ t, exec .clrCf s = .next t ∧
      SameBut { s with flags := { s.flags with cf := false, jf := true } } t [] [] []) ∧
    (encode .setCf = [0x0D] ∧ ∃ t, exec .setCf s = .next t ∧
      SameBut { s with flags := { s.flags with cf := true, jf := false } } t [] [] []) ∧
    (encode .cplCf = [0x0E] ∧ ∃ t, exec .cplCf s = .next t ∧
      SameBut { s with flags := { s.flags with cf := !s.flags.cf, jf := s.flags.cf } } t [] [] [])

/-- R193 to R195: setXB, clrXB, ldCfXB. -/
def Obligations.BitDirect : Prop :=
  ∀ (s : State) (x : Byte) (b : BitVec 3), s.Plain →
    let a : Word := x.setWidth 16
    let v := (s.peek a).getLsbD b.toNat
    (encode (.setXB x b) = [0x40 ||| b.setWidth 8, x] ∧ ∃ t, exec (.setXB x b) s = .next t ∧
      BitWritten s s t a b true { s.flags with zf := !v, jf := !v }) ∧
    (encode (.clrXB x b) = [0x48 ||| b.setWidth 8, x] ∧ ∃ t, exec (.clrXB x b) s = .next t ∧
      BitWritten s s t a b false { s.flags with zf := !v, jf := !v }) ∧
    (encode (.ldCfXB x b) = [0xD8 ||| b.setWidth 8, x] ∧ ∃ t, exec (.ldCfXB x b) s = .next t ∧
      SameBut { s with flags := { s.flags with cf := v, jf := !v } } t [] [] [.read a (s.peek a)])

/-- R196, R197, R199 and R200: setSrcB, clrSrcB, cplSrcB, ldSrcBCf. -/
def Obligations.BitMemoryWrite : Prop :=
  ∀ (s : State) (m : Mode) (b : BitVec 3), s.Plain →
    let a := (s.resolve m).1
    let u := (s.resolve m).2
    let v := (s.peek a).getLsbD b.toNat
    (encode (.setSrcB m b) = (0xE0 ||| m.code) :: (m.ext ++ [0x40 ||| b.setWidth 8]) ∧
      ∃ t, exec (.setSrcB m b) s = .next t ∧ BitWritten s u t a b true { s.flags with zf := !v, jf := !v }) ∧
    (encode (.clrSrcB m b) = (0xE0 ||| m.code) :: (m.ext ++ [0x48 ||| b.setWidth 8]) ∧
      ∃ t, exec (.clrSrcB m b) s = .next t ∧ BitWritten s u t a b false { s.flags with zf := !v, jf := !v }) ∧
    (encode (.cplSrcB m b) = (0xE0 ||| m.code) :: (m.ext ++ [0xC0 ||| b.setWidth 8]) ∧
      ∃ t, exec (.cplSrcB m b) s = .next t ∧ BitWritten s u t a b (!v) { s.flags with zf := !v, jf := !v }) ∧
    (encode (.ldSrcBCf m b) = (0xE0 ||| m.code) :: (m.ext ++ [0xC8 ||| b.setWidth 8]) ∧
      ∃ t, exec (.ldSrcBCf m b) s = .next t ∧ BitWritten s u t a b s.flags.cf { s.flags with jf := true })

/-- R198, R201 and R202: testSrcB, xorCfSrcB, ldCfSrcB. One read, no write. -/
def Obligations.BitMemoryRead : Prop :=
  ∀ (s : State) (m : Mode) (b : BitVec 3), s.Plain →
    let a := (s.resolve m).1
    let u := (s.resolve m).2
    let v := (s.peek a).getLsbD b.toNat
    (encode (.testSrcB m b) = (0xE0 ||| m.code) :: (m.ext ++ [0x50 ||| b.setWidth 8]) ∧
      ∃ t, exec (.testSrcB m b) s = .next t ∧
      SameBut { u with flags := { s.flags with zf := !v, jf := !v } } t [] [] [.read a (s.peek a)]) ∧
    (encode (.xorCfSrcB m b) = (0xE0 ||| m.code) :: (m.ext ++ [0xD0 ||| b.setWidth 8]) ∧
      ∃ t, exec (.xorCfSrcB m b) s = .next t ∧
      SameBut { u with flags := { s.flags with cf := s.flags.cf ^^ v, jf := !(s.flags.cf ^^ v) } } t
        [] [] [.read a (s.peek a)]) ∧
    (encode (.ldCfSrcB m b) = (0xE0 ||| m.code) :: (m.ext ++ [0xD8 ||| b.setWidth 8]) ∧
      ∃ t, exec (.ldCfSrcB m b) s = .next t ∧
      SameBut { u with flags := { s.flags with cf := v, jf := !v } } t [] [] [.read a (s.peek a)])

/-- R203 to R208: setGB, clrGB, cplGB, ldGBCf, xorCfGB, ldCfGB. -/
def Obligations.BitRegister : Prop :=
  ∀ (s : State) (g : Reg) (b : BitVec 3),
    let v := (s.reg g).getLsbD b.toNat
    let puts (i : Instr) (w : Bool) (f : Flags) : Prop :=
      ∃ t, exec i s = .next t ∧
        (∀ j, j < 8 → (t.reg g).getLsbD j = if j = b.toNat then w else (s.reg g).getLsbD j) ∧
        SameBut { s with flags := f } t [g] [] []
    (encode (.setGB g b) = [0xE8 ||| g.code, 0x40 ||| b.setWidth 8] ∧
      puts (.setGB g b) true { s.flags with zf := !v, jf := !v }) ∧
    (encode (.clrGB g b) = [0xE8 ||| g.code, 0x48 ||| b.setWidth 8] ∧
      puts (.clrGB g b) false { s.flags with zf := !v, jf := !v }) ∧
    (encode (.cplGB g b) = [0xE8 ||| g.code, 0xC0 ||| b.setWidth 8] ∧
      puts (.cplGB g b) (!v) { s.flags with zf := !v, jf := !v }) ∧
    (encode (.ldGBCf g b) = [0xE8 ||| g.code, 0xC8 ||| b.setWidth 8] ∧
      puts (.ldGBCf g b) s.flags.cf { s.flags with jf := true }) ∧
    (encode (.xorCfGB g b) = [0xE8 ||| g.code, 0xD0 ||| b.setWidth 8] ∧ ∃ t, exec (.xorCfGB g b) s = .next t ∧
      SameBut { s with flags := { s.flags with cf := s.flags.cf ^^ v, jf := !(s.flags.cf ^^ v) } } t [] [] []) ∧
    (encode (.ldCfGB g b) = [0xE8 ||| g.code, 0xD8 ||| b.setWidth 8] ∧ ∃ t, exec (.ldCfGB g b) s = .next t ∧
      SameBut { s with flags := { s.flags with cf := v, jf := !v } } t [] [] [])

/-- R209 to R213: setPpG, clrPpG, cplPpG, ldPpGCf, ldCfPpG. The pointer is DE (field 0) or HL (field 1), the bit number
the low three bits of register g; both are read before the access. -/
def Obligations.BitPointer : Prop :=
  ∀ (s : State) (hl : Bool) (g : Reg), s.Plain →
    let pp : Pair := if hl then .hl else .de
    let o : Byte := if hl then 1 else 0
    let a := s.pair pp
    let b : BitVec 3 := (s.reg g).extractLsb' 0 3
    let v := (s.peek a).getLsbD b.toNat
    (encode (.setPpG pp g) = [0xE8 ||| g.code, 0x82 ||| o] ∧ ∃ t, exec (.setPpG pp g) s = .next t ∧
      BitWritten s s t a b true { s.flags with zf := !v, jf := !v }) ∧
    (encode (.clrPpG pp g) = [0xE8 ||| g.code, 0x8A ||| o] ∧ ∃ t, exec (.clrPpG pp g) s = .next t ∧
      BitWritten s s t a b false { s.flags with zf := !v, jf := !v }) ∧
    (encode (.cplPpG pp g) = [0xE8 ||| g.code, 0x92 ||| o] ∧ ∃ t, exec (.cplPpG pp g) s = .next t ∧
      BitWritten s s t a b (!v) { s.flags with zf := !v, jf := !v }) ∧
    (encode (.ldPpGCf pp g) = [0xE8 ||| g.code, 0x9A ||| o] ∧ ∃ t, exec (.ldPpGCf pp g) s = .next t ∧
      BitWritten s s t a b s.flags.cf { s.flags with jf := true }) ∧
    (encode (.ldCfPpG pp g) = [0xE8 ||| g.code, 0x9E ||| o] ∧ ∃ t, exec (.ldCfPpG pp g) s = .next t ∧
      SameBut { s with flags := { s.flags with cf := v, jf := !v } } t [] [] [.read a (s.peek a)])

/-! ## Control transfer -/

/-- R216 and R233: nop, ldRbsN. NOP changes nothing. LD RBS,n selects bank n[3:0], so that a register name means that
bank's register from then on, and moves no value between banks. -/
def Obligations.NopAndBankSelect : Prop :=
  ∀ s : State,
    (encode .nop = [0x00] ∧ exec .nop s = .next s) ∧
    ∀ n : Byte, encode (.ldRbsN n) = [0x0F, n] ∧
      ∃ t, exec (.ldRbsN n) s = .next t ∧ t.rbs.toNat = n.toNat % 16 ∧ SameBut { s with rbs := t.rbs } t [] [] [] ∧
      ∀ r : Reg, t.reg r = s.bankReg t.rbs r

/-- R217 to R220 (with R215): jrsT, jrsF, jrCc, jr. A branch taken goes to start + 2 + the signed displacement; one not
taken, and every other part of the state, is left alone. -/
def Obligations.Branches : Prop :=
  ∀ s : State,
    let go (i : Instr) (taken : Bool) (d : Int) : Prop :=
      ∃ t, exec i s = .next t ∧
        SameBut { s with pc := if taken then BitVec.ofInt 16 (s.start.toNat + 2 + d) else s.pc } t [] [] []
    (∀ d : BitVec 5, encode (.jrsT d) = [0x80 ||| d.setWidth 8] ∧ go (.jrsT d) s.flags.jf d.toInt) ∧
    (∀ d : BitVec 5, encode (.jrsF d) = [0xA0 ||| d.setWidth 8] ∧ go (.jrsF d) (!s.flags.jf) d.toInt) ∧
    (∀ d : Byte,
      (encode (.jrCc .eq d) = [0xD0, d] ∧ go (.jrCc .eq d) s.flags.zf d.toInt) ∧
      (encode (.jrCc .ne d) = [0xD1, d] ∧ go (.jrCc .ne d) (!s.flags.zf) d.toInt) ∧
      (encode (.jrCc .lt d) = [0xD2, d] ∧ go (.jrCc .lt d) s.flags.cf d.toInt) ∧
      (encode (.jrCc .ge d) = [0xD3, d] ∧ go (.jrCc .ge d) (!s.flags.cf) d.toInt) ∧
      (encode (.jrCc .le d) = [0xD4, d] ∧ go (.jrCc .le d) (s.flags.cf || s.flags.zf) d.toInt) ∧
      (encode (.jrCc .gt d) = [0xD5, d] ∧ go (.jrCc .gt d) (!s.flags.cf && !s.flags.zf) d.toInt) ∧
      (encode (.jrCc .always d) = [0xD6, d] ∧ go (.jrCc .always d) true d.toInt) ∧
      (encode (.jrCc .never d) = [0xD7, d] ∧ go (.jrCc .never d) false d.toInt)) ∧
    ∀ d : Byte, encode (.jr d) = [0xFB, d] ∧ go (.jr d) true d.toInt

/-- R221 to R223: jpMn, jpGg, jpSrc. -/
def Obligations.Jumps : Prop :=
  ∀ s : State,
    (∀ n m : Byte, encode (.jpMn (m ++ n)) = [0xFF, 0xFE, n, m] ∧ ∃ t, exec (.jpMn (m ++ n)) s = .next t ∧
      SameBut { s with pc := m ++ n } t [] [] []) ∧
    (∀ gg : Pair, encode (.jpGg gg) = [0xE8 ||| gg.code, 0xFE] ∧ ∃ t, exec (.jpGg gg) s = .next t ∧
      SameBut { s with pc := s.pair gg } t [] [] []) ∧
    ∀ m : Mode, s.Plain →
      let a := (s.resolve m).1
      let u := (s.resolve m).2
      encode (.jpSrc m) = (0xE0 ||| m.code) :: (m.ext ++ [0xFE]) ∧ ∃ t, exec (.jpSrc m) s = .next t ∧
      SameBut { u with pc := s.peek (a + 1) ++ s.peek a } t [] []
        [.read a (s.peek a), .read (a + 1) (s.peek (a + 1))]

/-- R224 to R228: callMn, callGg, callSrc, callv, callp. The return address, which is the address of the next instruction,
lies on the stack low byte first; a target that is read from memory is read before the push. -/
def Obligations.Calls : Prop :=
  ∀ s : State, s.Plain →
    let calls (i : Instr) (u : State) (target : Word) (reads : List BusAccess) : Prop :=
      ∃ t, exec i s = .next t ∧ t.peek (s.sp - 1) ++ t.peek (s.sp - 2) = s.pc ∧
        SameBut { u with pc := target, sp := s.sp - 2 } t [] [s.sp - 1, s.sp - 2]
          (reads ++ [.write (s.sp - 1) (t.peek (s.sp - 1)), .write (s.sp - 2) (t.peek (s.sp - 2))])
    (∀ n m : Byte, encode (.callMn (m ++ n)) = [0xFF, 0xFC, n, m] ∧ calls (.callMn (m ++ n)) s (m ++ n) []) ∧
    (∀ gg : Pair, encode (.callGg gg) = [0xE8 ||| gg.code, 0xFC] ∧ calls (.callGg gg) s (s.pair gg) []) ∧
    (∀ m : Mode,
      let a := (s.resolve m).1
      encode (.callSrc m) = (0xE0 ||| m.code) :: (m.ext ++ [0xFC]) ∧
      calls (.callSrc m) (s.resolve m).2 (s.peek (a + 1) ++ s.peek a)
        [.read a (s.peek a), .read (a + 1) (s.peek (a + 1))]) ∧
    (∀ v : BitVec 4,
      let a : Word := BitVec.ofNat 16 (s.params.callvBase.toNat + 2 * v.toNat)
      encode (.callv v) = [0xC0 ||| v.setWidth 8] ∧
      calls (.callv v) s (s.peek (a + 1) ++ s.peek a) [.read a (s.peek a), .read (a + 1) (s.peek (a + 1))]) ∧
    ∀ n : Byte, encode (.callp n) = [0xFF, 0xFD, n] ∧ calls (.callp n) s (s.params.callpPage ++ n) []

/-- R229 to R231: ret, reti, retn. RETI and RETN restore the PSW of the frame, then PC; RETI sets IMF, RETN leaves it. -/
def Obligations.Returns : Prop :=
  ∀ s : State, s.Plain →
    let p := s.peek s.sp
    let restored (e : Bool) : State := { s with
      pc := s.peek (s.sp + 2) ++ s.peek (s.sp + 1)
      sp := s.sp + 3
      flags := flagsOfPsw p
      rbs := s.bankAfterPsw p
      imf := e }
    let pops : List BusAccess :=
      [.read s.sp p, .read (s.sp + 1) (s.peek (s.sp + 1)), .read (s.sp + 2) (s.peek (s.sp + 2))]
    (encode .ret = [0x05] ∧ ∃ t, exec .ret s = .next t ∧
      SameBut { s with pc := s.peek (s.sp + 1) ++ p, sp := s.sp + 2 } t [] []
        [.read s.sp p, .read (s.sp + 1) (s.peek (s.sp + 1))]) ∧
    (encode .reti = [0x04] ∧ ∃ t, exec .reti s = .next t ∧ SameBut (restored true) t [] [] pops) ∧
    (encode .retn = [0xE8, 0x04] ∧ ∃ t, exec .retn s = .next t ∧ SameBut (restored s.imf) t [] [] pops)

/-- R232 (with R239 and R61): swi takes the interrupt entry through VEC_SWI, whatever IMF is. -/
def Obligations.SoftwareInterrupt : Prop :=
  ∀ s : State, s.Plain → encode .swi = [0xFF, 0xFF] ∧ ∃ t, exec .swi s = .next t ∧ Enters s t s.params.vecSwi

/-- Save and restore (R29, R60, R244). A word pushed is the word popped, with SP where it was. Reading the PSW back after a
write gives the byte, or its high nibble; writing back what was read changes nothing. Whatever vector an entry goes
through, RETN at once brings back PC, SP, the four flags, the bank and every register, and changes no byte outside the
frame; IMF is left clear by RETN and set by RETI. -/
def Obligations.SaveAndRestore : Prop :=
  (∀ (s : State) (v : Word), s.Plain → (s.push16 v).pop16.1 = v ∧ (s.push16 v).pop16.2.sp = s.sp) ∧
  (∀ (s : State) (v : Byte),
    ((s.setPsw v).getPsw = match s.params.pswLow with | .zero => v &&& 0xF0 | .rbs => v) ∧ s.setPsw s.getPsw = s) ∧
  ∀ (s : State) (v : Word), s.Plain →
    (∃ t, exec .retn (s.enter v) = .next t ∧
      SameBut { s with imf := false, bus := t.bus } t [] [s.sp - 1, s.sp - 2, s.sp - 3] []) ∧
    (∃ t, exec .reti (s.enter v) = .next t ∧
      SameBut { s with imf := true, bus := t.bus } t [] [s.sp - 1, s.sp - 2, s.sp - 3] [])

/-! ## The engine -/

/-- A step runs the decoded instruction (R70, R71, R72). Where the boundary accepts no interrupt and the bytes at PC begin
with the encoding of a well-formed instruction, the step is `exec` of it: in the state with the bytes fetched one by
one, PC past them and `start` at the first, and then the event and its cycle count are reported. Any byte may follow: nothing past the
instruction is read. -/
def Obligations.StepRunsDecodedInstruction : Prop :=
  ∀ (s : State) (i : Instr),
    let u := s.boundary
    i.wellFormed = true → s.io = [] → u.nmip = false → (u.imf = false ∨ s.inputs.calm s.params.vecIrq.length) →
    (∀ k, (h : k < (encode i).length) → u.peek (u.pc + BitVec.ofNat 16 k) = (encode i)[k]) →
    ∃ t, exec i { u with
        start := u.pc
        pc := u.pc + BitVec.ofNat 16 (encode i).length
        bus := u.bus ++ (encode i).mapIdx fun k b => .read (u.pc + BitVec.ofNat 16 k) b } = .next t ∧
      step s = .next { t with events := .executed i :: t.events } ∧
      ({ t with events := .executed i :: t.events } : State).reportedCycles = some (Config.cyclesInstr i)

/-- R235 (with R92). Where the bytes fetched at PC match no instruction, the step consumes them, reports them, and changes
nothing else: no register, flag, RBS, SP, IMF or memory, and no access but the fetch. -/
def Obligations.IllegalStep : Prop :=
  ∀ (s : State) (bytes : List Byte) (why : Illegal),
    let u := s.boundary
    decode bytes = .illegal why → (∀ k, k < bytes.length → decode (bytes.take k) = .more) →
    s.io = [] → u.nmip = false → (u.imf = false ∨ s.inputs.calm s.params.vecIrq.length) →
    (∀ k, (h : k < bytes.length) → u.peek (u.pc + BitVec.ofNat 16 k) = bytes[k]) →
    let t : State := { u with
      start := u.pc
      pc := u.pc + BitVec.ofNat 16 bytes.length
      bus := u.bus ++ bytes.mapIdx fun k b => .read (u.pc + BitVec.ofNat 16 k) b
      events := .illegal bytes :: u.events }
    step s = .next t ∧ t.reportedCycles = some Config.cyclesIllegal

/-- R240. Where NMIP is set at the boundary, the step clears it and takes the entry through VEC_NMI, whatever IMF and the
maskable lines are (R238), instead of an instruction. -/
def Obligations.AcceptNonMaskable : Prop :=
  ∀ s : State, s.Plain → s.boundary.nmip = true →
    ∃ t, Enters { s.boundary with nmip := false } t s.params.vecNmi ∧
      step s = .next { t with events := .acceptedNmi :: t.events } ∧
      ({ t with events := .acceptedNmi :: t.events } : State).reportedCycles = some Config.cyclesNmi

/-- R241 and R242. With NMIP clear and IMF set, the lowest asserted line is acknowledged, for this step, and the entry
through its vector is taken. -/
def Obligations.AcceptMaskable : Prop :=
  ∀ (s : State) (k : Nat) (h : k < s.params.vecIrq.length), s.Plain →
    s.boundary.nmip = false → s.boundary.imf = true → s.inputs.irq.getD k false = true → s.inputs.calm k →
    ∃ t, Enters { s.boundary with ack := some k } t s.params.vecIrq[k] ∧
      step s = .next { t with events := .acceptedIrq k :: t.events } ∧
      ({ t with events := .acceptedIrq k :: t.events } : State).reportedCycles = some (Config.cyclesIrq k)

/-- R237. What a boundary without reset samples: a pending `imf_write` first, then the edge of the non-maskable line, whose
level is kept; the outputs of the step before are taken back and the inputs move on; nothing else changes. -/
def Obligations.BoundarySampling : Prop :=
  ∀ s : State, s.inputs.reset = false →
    s.boundary = { s with
      imf := (match s.inputs.imfWrite with | none => s.imf | some v => v.getLsbD 0)
      nmip := s.nmip || (!s.nmil && s.inputs.nmi)
      nmil := s.inputs.nmi
      bus := []
      ack := none
      inputs := s.boundary.inputs
      later := s.boundary.later }

/-- R252 and R253. With the reset input asserted and no `imf_write` pending, the boundary leaves RBS, IMF and NMIP clear,
NMIL at the level of the line (so that a line already high is no edge), PC at the reset target, and memory as it was;
no frame is pushed and no event reported, and the step then fetches: it accepts nothing. The model's choices: that the
reset input takes effect before the sampling of the same boundary (log 12), that the non-maskable line has one level at
the reset and at that sampling (log 24), and that memory stays as it was with `BANK_ALIAS` set too, where the registers
lie in it (log 23). -/
def Obligations.ResetSequence : Prop :=
  ∀ s : State, s.io = [] → s.inputs.reset = true → s.inputs.imfWrite = none →
    let u := s.boundary
    u.rbs = 0 ∧ u.imf = false ∧ u.nmip = false ∧ u.nmil = s.inputs.nmi ∧ u.pc = vectorTarget s s.params.vecReset ∧
    u.bus = vectorReads s s.params.vecReset ∧ u.mem = s.mem ∧ u.events = s.events ∧ u.ack = none ∧
    u.params = s.params ∧ step s = u.runInstr

/-- What reset leaves of the values the spec gives (R37, R252, R9), and an empty memory in its canonical form. -/
def Obligations.ResetState : Prop :=
  State.reset.rbs = 0 ∧ State.reset.imf = false ∧ State.reset.nmip = false ∧
  State.reset.pc = vectorTarget State.reset State.reset.params.vecReset ∧ State.reset.params = Params.default ∧
  State.reset.mem.wf ∧ State.reset.events = []

/-- Every step keeps the memory in its canonical form: addresses below 65536, strictly rising, no entry that an unlisted
address would read as. -/
def Obligations.StepKeepsMemoryCanonical : Prop :=
  ∀ s t : State, s.mem.wf → step s = .next t → t.mem.wf

/-- The core never stops (R234, R72, R35): every step of every state answers a next state with exactly one event more,
and so does every instruction, in every state, with the parameters and the inputs as they were. -/
def Obligations.EveryStepCompletes : Prop :=
  (∀ s : State, ∃ t e, step s = .next t ∧ t.events = e :: s.events ∧ t.params = s.params ∧ t.io = s.io) ∧
  ∀ (i : Instr) (s : State), ∃ t, exec i s = .next t ∧ t.params = s.params ∧ t.io = s.io ∧ t.inputs = s.inputs ∧
    t.later = s.later ∧ t.start = s.start ∧ t.nmip = s.nmip ∧ t.nmil = s.nmil ∧ t.events = s.events ∧ t.ack = s.ack

/-- Banks are isolated (R21, R22): with `BANK_ALIAS = none`, no instruction changes a register of a bank other than the
current one, and none learns anything of it: from two states that differ only in other banks, every instruction leads
to two states that differ only there. -/
def Obligations.BankIsolation : Prop :=
  ∀ (i : Instr) (s s' t t' : State), s.params.bankAlias = none →
    s' = { s with bank := s'.bank } → (∀ r : Reg, s'.bankReg s.rbs r = s.bankReg s.rbs r) →
    exec i s = .next t → exec i s' = .next t' →
    (∀ (n : BitVec 4) (r : Reg), n ≠ s.rbs → t.bankReg n r = s.bankReg n r) ∧
    t' = { t with bank := t'.bank } ∧ ∀ r : Reg, t'.bankReg s.rbs r = t.bankReg s.rbs r
end

