-- ==== Sys2Proof/Laws/State.lean ====
section
/-! SUPPORT. One lemma for each field and each update: what a named operation leaves unchanged, so that no proof
unfolds a record update. -/

namespace Sys2Proof.Machine

/-! `State.setFlags` -/

@[simp] theorem State.setFlags_bank (s : State) (f : Flags) : (s.setFlags f).bank = s.bank := rfl
@[simp] theorem State.setFlags_rbs (s : State) (f : Flags) : (s.setFlags f).rbs = s.rbs := rfl
@[simp] theorem State.setFlags_pc (s : State) (f : Flags) : (s.setFlags f).pc = s.pc := rfl
@[simp] theorem State.setFlags_sp (s : State) (f : Flags) : (s.setFlags f).sp = s.sp := rfl
@[simp] theorem State.setFlags_imf (s : State) (f : Flags) : (s.setFlags f).imf = s.imf := rfl
@[simp] theorem State.setFlags_nmip (s : State) (f : Flags) : (s.setFlags f).nmip = s.nmip := rfl
@[simp] theorem State.setFlags_nmil (s : State) (f : Flags) : (s.setFlags f).nmil = s.nmil := rfl
@[simp] theorem State.setFlags_mem (s : State) (f : Flags) : (s.setFlags f).mem = s.mem := rfl
@[simp] theorem State.setFlags_io (s : State) (f : Flags) : (s.setFlags f).io = s.io := rfl
@[simp] theorem State.setFlags_params (s : State) (f : Flags) : (s.setFlags f).params = s.params := rfl
@[simp] theorem State.setFlags_inputs (s : State) (f : Flags) : (s.setFlags f).inputs = s.inputs := rfl
@[simp] theorem State.setFlags_later (s : State) (f : Flags) : (s.setFlags f).later = s.later := rfl
@[simp] theorem State.setFlags_start (s : State) (f : Flags) : (s.setFlags f).start = s.start := rfl
@[simp] theorem State.setFlags_draws (s : State) (f : Flags) : (s.setFlags f).draws = s.draws := rfl
@[simp] theorem State.setFlags_bus (s : State) (f : Flags) : (s.setFlags f).bus = s.bus := rfl
@[simp] theorem State.setFlags_ack (s : State) (f : Flags) : (s.setFlags f).ack = s.ack := rfl
@[simp] theorem State.setFlags_events (s : State) (f : Flags) : (s.setFlags f).events = s.events := rfl

@[simp] theorem State.setFlags_flags (s : State) (f : Flags) : (s.setFlags f).flags = f := rfl

/-! `State.moved` -/

@[simp] theorem State.moved_bank (s : State) : (s.moved).bank = s.bank := rfl
@[simp] theorem State.moved_rbs (s : State) : (s.moved).rbs = s.rbs := rfl
@[simp] theorem State.moved_pc (s : State) : (s.moved).pc = s.pc := rfl
@[simp] theorem State.moved_sp (s : State) : (s.moved).sp = s.sp := rfl
@[simp] theorem State.moved_imf (s : State) : (s.moved).imf = s.imf := rfl
@[simp] theorem State.moved_nmip (s : State) : (s.moved).nmip = s.nmip := rfl
@[simp] theorem State.moved_nmil (s : State) : (s.moved).nmil = s.nmil := rfl
@[simp] theorem State.moved_mem (s : State) : (s.moved).mem = s.mem := rfl
@[simp] theorem State.moved_io (s : State) : (s.moved).io = s.io := rfl
@[simp] theorem State.moved_params (s : State) : (s.moved).params = s.params := rfl
@[simp] theorem State.moved_inputs (s : State) : (s.moved).inputs = s.inputs := rfl
@[simp] theorem State.moved_later (s : State) : (s.moved).later = s.later := rfl
@[simp] theorem State.moved_start (s : State) : (s.moved).start = s.start := rfl
@[simp] theorem State.moved_draws (s : State) : (s.moved).draws = s.draws := rfl
@[simp] theorem State.moved_bus (s : State) : (s.moved).bus = s.bus := rfl
@[simp] theorem State.moved_ack (s : State) : (s.moved).ack = s.ack := rfl
@[simp] theorem State.moved_events (s : State) : (s.moved).events = s.events := rfl

@[simp] theorem State.moved_flags (s : State) : s.moved.flags = moveFlags s.flags := rfl

/-! `State.drawByte` -/

@[simp] theorem State.drawByte_bank (s : State) : (s.drawByte.2).bank = s.bank := rfl
@[simp] theorem State.drawByte_rbs (s : State) : (s.drawByte.2).rbs = s.rbs := rfl
@[simp] theorem State.drawByte_pc (s : State) : (s.drawByte.2).pc = s.pc := rfl
@[simp] theorem State.drawByte_sp (s : State) : (s.drawByte.2).sp = s.sp := rfl
@[simp] theorem State.drawByte_flags (s : State) : (s.drawByte.2).flags = s.flags := rfl
@[simp] theorem State.drawByte_imf (s : State) : (s.drawByte.2).imf = s.imf := rfl
@[simp] theorem State.drawByte_nmip (s : State) : (s.drawByte.2).nmip = s.nmip := rfl
@[simp] theorem State.drawByte_nmil (s : State) : (s.drawByte.2).nmil = s.nmil := rfl
@[simp] theorem State.drawByte_mem (s : State) : (s.drawByte.2).mem = s.mem := rfl
@[simp] theorem State.drawByte_io (s : State) : (s.drawByte.2).io = s.io := rfl
@[simp] theorem State.drawByte_params (s : State) : (s.drawByte.2).params = s.params := rfl
@[simp] theorem State.drawByte_inputs (s : State) : (s.drawByte.2).inputs = s.inputs := rfl
@[simp] theorem State.drawByte_later (s : State) : (s.drawByte.2).later = s.later := rfl
@[simp] theorem State.drawByte_start (s : State) : (s.drawByte.2).start = s.start := rfl
@[simp] theorem State.drawByte_bus (s : State) : (s.drawByte.2).bus = s.bus := rfl
@[simp] theorem State.drawByte_ack (s : State) : (s.drawByte.2).ack = s.ack := rfl
@[simp] theorem State.drawByte_events (s : State) : (s.drawByte.2).events = s.events := rfl

/-! `State.drawBit` -/

@[simp] theorem State.drawBit_bank (s : State) : (s.drawBit.2).bank = s.bank := rfl
@[simp] theorem State.drawBit_rbs (s : State) : (s.drawBit.2).rbs = s.rbs := rfl
@[simp] theorem State.drawBit_pc (s : State) : (s.drawBit.2).pc = s.pc := rfl
@[simp] theorem State.drawBit_sp (s : State) : (s.drawBit.2).sp = s.sp := rfl
@[simp] theorem State.drawBit_flags (s : State) : (s.drawBit.2).flags = s.flags := rfl
@[simp] theorem State.drawBit_imf (s : State) : (s.drawBit.2).imf = s.imf := rfl
@[simp] theorem State.drawBit_nmip (s : State) : (s.drawBit.2).nmip = s.nmip := rfl
@[simp] theorem State.drawBit_nmil (s : State) : (s.drawBit.2).nmil = s.nmil := rfl
@[simp] theorem State.drawBit_mem (s : State) : (s.drawBit.2).mem = s.mem := rfl
@[simp] theorem State.drawBit_io (s : State) : (s.drawBit.2).io = s.io := rfl
@[simp] theorem State.drawBit_params (s : State) : (s.drawBit.2).params = s.params := rfl
@[simp] theorem State.drawBit_inputs (s : State) : (s.drawBit.2).inputs = s.inputs := rfl
@[simp] theorem State.drawBit_later (s : State) : (s.drawBit.2).later = s.later := rfl
@[simp] theorem State.drawBit_start (s : State) : (s.drawBit.2).start = s.start := rfl
@[simp] theorem State.drawBit_bus (s : State) : (s.drawBit.2).bus = s.bus := rfl
@[simp] theorem State.drawBit_ack (s : State) : (s.drawBit.2).ack = s.ack := rfl
@[simp] theorem State.drawBit_events (s : State) : (s.drawBit.2).events = s.events := rfl

/-! `State.branch` -/

@[simp] theorem State.branch_bank (s : State) (d : Word) : (s.branch d).bank = s.bank := rfl
@[simp] theorem State.branch_rbs (s : State) (d : Word) : (s.branch d).rbs = s.rbs := rfl
@[simp] theorem State.branch_sp (s : State) (d : Word) : (s.branch d).sp = s.sp := rfl
@[simp] theorem State.branch_flags (s : State) (d : Word) : (s.branch d).flags = s.flags := rfl
@[simp] theorem State.branch_imf (s : State) (d : Word) : (s.branch d).imf = s.imf := rfl
@[simp] theorem State.branch_nmip (s : State) (d : Word) : (s.branch d).nmip = s.nmip := rfl
@[simp] theorem State.branch_nmil (s : State) (d : Word) : (s.branch d).nmil = s.nmil := rfl
@[simp] theorem State.branch_mem (s : State) (d : Word) : (s.branch d).mem = s.mem := rfl
@[simp] theorem State.branch_io (s : State) (d : Word) : (s.branch d).io = s.io := rfl
@[simp] theorem State.branch_params (s : State) (d : Word) : (s.branch d).params = s.params := rfl
@[simp] theorem State.branch_inputs (s : State) (d : Word) : (s.branch d).inputs = s.inputs := rfl
@[simp] theorem State.branch_later (s : State) (d : Word) : (s.branch d).later = s.later := rfl
@[simp] theorem State.branch_start (s : State) (d : Word) : (s.branch d).start = s.start := rfl
@[simp] theorem State.branch_draws (s : State) (d : Word) : (s.branch d).draws = s.draws := rfl
@[simp] theorem State.branch_bus (s : State) (d : Word) : (s.branch d).bus = s.bus := rfl
@[simp] theorem State.branch_ack (s : State) (d : Word) : (s.branch d).ack = s.ack := rfl
@[simp] theorem State.branch_events (s : State) (d : Word) : (s.branch d).events = s.events := rfl

@[simp] theorem State.branch_pc (s : State) (d : Word) : (s.branch d).pc = s.start + 2 + d := rfl

/-! `State.jump` -/

@[simp] theorem State.jump_bank (s : State) (a : Word) : (s.jump a).bank = s.bank := rfl
@[simp] theorem State.jump_rbs (s : State) (a : Word) : (s.jump a).rbs = s.rbs := rfl
@[simp] theorem State.jump_sp (s : State) (a : Word) : (s.jump a).sp = s.sp := rfl
@[simp] theorem State.jump_flags (s : State) (a : Word) : (s.jump a).flags = s.flags := rfl
@[simp] theorem State.jump_imf (s : State) (a : Word) : (s.jump a).imf = s.imf := rfl
@[simp] theorem State.jump_nmip (s : State) (a : Word) : (s.jump a).nmip = s.nmip := rfl
@[simp] theorem State.jump_nmil (s : State) (a : Word) : (s.jump a).nmil = s.nmil := rfl
@[simp] theorem State.jump_mem (s : State) (a : Word) : (s.jump a).mem = s.mem := rfl
@[simp] theorem State.jump_io (s : State) (a : Word) : (s.jump a).io = s.io := rfl
@[simp] theorem State.jump_params (s : State) (a : Word) : (s.jump a).params = s.params := rfl
@[simp] theorem State.jump_inputs (s : State) (a : Word) : (s.jump a).inputs = s.inputs := rfl
@[simp] theorem State.jump_later (s : State) (a : Word) : (s.jump a).later = s.later := rfl
@[simp] theorem State.jump_start (s : State) (a : Word) : (s.jump a).start = s.start := rfl
@[simp] theorem State.jump_draws (s : State) (a : Word) : (s.jump a).draws = s.draws := rfl
@[simp] theorem State.jump_bus (s : State) (a : Word) : (s.jump a).bus = s.bus := rfl
@[simp] theorem State.jump_ack (s : State) (a : Word) : (s.jump a).ack = s.ack := rfl
@[simp] theorem State.jump_events (s : State) (a : Word) : (s.jump a).events = s.events := rfl

@[simp] theorem State.jump_pc (s : State) (a : Word) : (s.jump a).pc = a := rfl

/-! `State.report` -/

@[simp] theorem State.report_bank (s : State) (e : Event) : (s.report e).bank = s.bank := rfl
@[simp] theorem State.report_rbs (s : State) (e : Event) : (s.report e).rbs = s.rbs := rfl
@[simp] theorem State.report_pc (s : State) (e : Event) : (s.report e).pc = s.pc := rfl
@[simp] theorem State.report_sp (s : State) (e : Event) : (s.report e).sp = s.sp := rfl
@[simp] theorem State.report_flags (s : State) (e : Event) : (s.report e).flags = s.flags := rfl
@[simp] theorem State.report_imf (s : State) (e : Event) : (s.report e).imf = s.imf := rfl
@[simp] theorem State.report_nmip (s : State) (e : Event) : (s.report e).nmip = s.nmip := rfl
@[simp] theorem State.report_nmil (s : State) (e : Event) : (s.report e).nmil = s.nmil := rfl
@[simp] theorem State.report_mem (s : State) (e : Event) : (s.report e).mem = s.mem := rfl
@[simp] theorem State.report_io (s : State) (e : Event) : (s.report e).io = s.io := rfl
@[simp] theorem State.report_params (s : State) (e : Event) : (s.report e).params = s.params := rfl
@[simp] theorem State.report_inputs (s : State) (e : Event) : (s.report e).inputs = s.inputs := rfl
@[simp] theorem State.report_later (s : State) (e : Event) : (s.report e).later = s.later := rfl
@[simp] theorem State.report_start (s : State) (e : Event) : (s.report e).start = s.start := rfl
@[simp] theorem State.report_draws (s : State) (e : Event) : (s.report e).draws = s.draws := rfl
@[simp] theorem State.report_bus (s : State) (e : Event) : (s.report e).bus = s.bus := rfl
@[simp] theorem State.report_ack (s : State) (e : Event) : (s.report e).ack = s.ack := rfl

@[simp] theorem State.report_events (s : State) (e : Event) : (s.report e).events = e :: s.events := rfl

/-! `State.beginStep` -/

@[simp] theorem State.beginStep_bank (s : State) : (s.beginStep).bank = s.bank := rfl
@[simp] theorem State.beginStep_rbs (s : State) : (s.beginStep).rbs = s.rbs := rfl
@[simp] theorem State.beginStep_pc (s : State) : (s.beginStep).pc = s.pc := rfl
@[simp] theorem State.beginStep_sp (s : State) : (s.beginStep).sp = s.sp := rfl
@[simp] theorem State.beginStep_flags (s : State) : (s.beginStep).flags = s.flags := rfl
@[simp] theorem State.beginStep_imf (s : State) : (s.beginStep).imf = s.imf := rfl
@[simp] theorem State.beginStep_nmip (s : State) : (s.beginStep).nmip = s.nmip := rfl
@[simp] theorem State.beginStep_nmil (s : State) : (s.beginStep).nmil = s.nmil := rfl
@[simp] theorem State.beginStep_mem (s : State) : (s.beginStep).mem = s.mem := rfl
@[simp] theorem State.beginStep_io (s : State) : (s.beginStep).io = s.io := rfl
@[simp] theorem State.beginStep_params (s : State) : (s.beginStep).params = s.params := rfl
@[simp] theorem State.beginStep_inputs (s : State) : (s.beginStep).inputs = s.inputs := rfl
@[simp] theorem State.beginStep_later (s : State) : (s.beginStep).later = s.later := rfl
@[simp] theorem State.beginStep_start (s : State) : (s.beginStep).start = s.start := rfl
@[simp] theorem State.beginStep_draws (s : State) : (s.beginStep).draws = s.draws := rfl
@[simp] theorem State.beginStep_events (s : State) : (s.beginStep).events = s.events := rfl

/-! `State.sampleNmi` -/

@[simp] theorem State.sampleNmi_bank (s : State) : (s.sampleNmi).bank = s.bank := rfl
@[simp] theorem State.sampleNmi_rbs (s : State) : (s.sampleNmi).rbs = s.rbs := rfl
@[simp] theorem State.sampleNmi_pc (s : State) : (s.sampleNmi).pc = s.pc := rfl
@[simp] theorem State.sampleNmi_sp (s : State) : (s.sampleNmi).sp = s.sp := rfl
@[simp] theorem State.sampleNmi_flags (s : State) : (s.sampleNmi).flags = s.flags := rfl
@[simp] theorem State.sampleNmi_imf (s : State) : (s.sampleNmi).imf = s.imf := rfl
@[simp] theorem State.sampleNmi_mem (s : State) : (s.sampleNmi).mem = s.mem := rfl
@[simp] theorem State.sampleNmi_io (s : State) : (s.sampleNmi).io = s.io := rfl
@[simp] theorem State.sampleNmi_params (s : State) : (s.sampleNmi).params = s.params := rfl
@[simp] theorem State.sampleNmi_inputs (s : State) : (s.sampleNmi).inputs = s.inputs := rfl
@[simp] theorem State.sampleNmi_later (s : State) : (s.sampleNmi).later = s.later := rfl
@[simp] theorem State.sampleNmi_start (s : State) : (s.sampleNmi).start = s.start := rfl
@[simp] theorem State.sampleNmi_draws (s : State) : (s.sampleNmi).draws = s.draws := rfl
@[simp] theorem State.sampleNmi_bus (s : State) : (s.sampleNmi).bus = s.bus := rfl
@[simp] theorem State.sampleNmi_ack (s : State) : (s.sampleNmi).ack = s.ack := rfl
@[simp] theorem State.sampleNmi_events (s : State) : (s.sampleNmi).events = s.events := rfl

/-! `State.memRead` -/

@[simp] theorem State.memRead_bank (s : State) (a : Word) : ((s.memRead a).2).bank = s.bank := by unfold State.memRead; split <;> rfl
@[simp] theorem State.memRead_rbs (s : State) (a : Word) : ((s.memRead a).2).rbs = s.rbs := by unfold State.memRead; split <;> rfl
@[simp] theorem State.memRead_pc (s : State) (a : Word) : ((s.memRead a).2).pc = s.pc := by unfold State.memRead; split <;> rfl
@[simp] theorem State.memRead_sp (s : State) (a : Word) : ((s.memRead a).2).sp = s.sp := by unfold State.memRead; split <;> rfl
@[simp] theorem State.memRead_flags (s : State) (a : Word) : ((s.memRead a).2).flags = s.flags := by unfold State.memRead; split <;> rfl
@[simp] theorem State.memRead_imf (s : State) (a : Word) : ((s.memRead a).2).imf = s.imf := by unfold State.memRead; split <;> rfl
@[simp] theorem State.memRead_nmip (s : State) (a : Word) : ((s.memRead a).2).nmip = s.nmip := by unfold State.memRead; split <;> rfl
@[simp] theorem State.memRead_nmil (s : State) (a : Word) : ((s.memRead a).2).nmil = s.nmil := by unfold State.memRead; split <;> rfl
@[simp] theorem State.memRead_mem (s : State) (a : Word) : ((s.memRead a).2).mem = s.mem := by unfold State.memRead; split <;> rfl
@[simp] theorem State.memRead_io (s : State) (a : Word) : ((s.memRead a).2).io = s.io := by unfold State.memRead; split <;> rfl
@[simp] theorem State.memRead_params (s : State) (a : Word) : ((s.memRead a).2).params = s.params := by unfold State.memRead; split <;> rfl
@[simp] theorem State.memRead_inputs (s : State) (a : Word) : ((s.memRead a).2).inputs = s.inputs := by unfold State.memRead; split <;> rfl
@[simp] theorem State.memRead_later (s : State) (a : Word) : ((s.memRead a).2).later = s.later := by unfold State.memRead; split <;> rfl
@[simp] theorem State.memRead_start (s : State) (a : Word) : ((s.memRead a).2).start = s.start := by unfold State.memRead; split <;> rfl
@[simp] theorem State.memRead_ack (s : State) (a : Word) : ((s.memRead a).2).ack = s.ack := by unfold State.memRead; split <;> rfl
@[simp] theorem State.memRead_events (s : State) (a : Word) : ((s.memRead a).2).events = s.events := by unfold State.memRead; split <;> rfl

/-! `State.memRead16` -/

@[simp] theorem State.memRead16_bank (s : State) (a : Word) : ((s.memRead16 a).2).bank = s.bank := by simp [State.memRead16]
@[simp] theorem State.memRead16_rbs (s : State) (a : Word) : ((s.memRead16 a).2).rbs = s.rbs := by simp [State.memRead16]
@[simp] theorem State.memRead16_pc (s : State) (a : Word) : ((s.memRead16 a).2).pc = s.pc := by simp [State.memRead16]
@[simp] theorem State.memRead16_sp (s : State) (a : Word) : ((s.memRead16 a).2).sp = s.sp := by simp [State.memRead16]
@[simp] theorem State.memRead16_flags (s : State) (a : Word) : ((s.memRead16 a).2).flags = s.flags := by simp [State.memRead16]
@[simp] theorem State.memRead16_imf (s : State) (a : Word) : ((s.memRead16 a).2).imf = s.imf := by simp [State.memRead16]
@[simp] theorem State.memRead16_nmip (s : State) (a : Word) : ((s.memRead16 a).2).nmip = s.nmip := by simp [State.memRead16]
@[simp] theorem State.memRead16_nmil (s : State) (a : Word) : ((s.memRead16 a).2).nmil = s.nmil := by simp [State.memRead16]
@[simp] theorem State.memRead16_mem (s : State) (a : Word) : ((s.memRead16 a).2).mem = s.mem := by simp [State.memRead16]
@[simp] theorem State.memRead16_io (s : State) (a : Word) : ((s.memRead16 a).2).io = s.io := by simp [State.memRead16]
@[simp] theorem State.memRead16_params (s : State) (a : Word) : ((s.memRead16 a).2).params = s.params := by simp [State.memRead16]
@[simp] theorem State.memRead16_inputs (s : State) (a : Word) : ((s.memRead16 a).2).inputs = s.inputs := by simp [State.memRead16]
@[simp] theorem State.memRead16_later (s : State) (a : Word) : ((s.memRead16 a).2).later = s.later := by simp [State.memRead16]
@[simp] theorem State.memRead16_start (s : State) (a : Word) : ((s.memRead16 a).2).start = s.start := by simp [State.memRead16]
@[simp] theorem State.memRead16_ack (s : State) (a : Word) : ((s.memRead16 a).2).ack = s.ack := by simp [State.memRead16]
@[simp] theorem State.memRead16_events (s : State) (a : Word) : ((s.memRead16 a).2).events = s.events := by simp [State.memRead16]

/-! `State.mirrorImf` -/

@[simp] theorem State.mirrorImf_bank (s : State) (a : Word) (v : Byte) : (s.mirrorImf a v).bank = s.bank := by
  unfold State.mirrorImf
  split
  · rfl
  · split <;> rfl
@[simp] theorem State.mirrorImf_rbs (s : State) (a : Word) (v : Byte) : (s.mirrorImf a v).rbs = s.rbs := by
  unfold State.mirrorImf
  split
  · rfl
  · split <;> rfl
@[simp] theorem State.mirrorImf_pc (s : State) (a : Word) (v : Byte) : (s.mirrorImf a v).pc = s.pc := by
  unfold State.mirrorImf
  split
  · rfl
  · split <;> rfl
@[simp] theorem State.mirrorImf_sp (s : State) (a : Word) (v : Byte) : (s.mirrorImf a v).sp = s.sp := by
  unfold State.mirrorImf
  split
  · rfl
  · split <;> rfl
@[simp] theorem State.mirrorImf_flags (s : State) (a : Word) (v : Byte) : (s.mirrorImf a v).flags = s.flags := by
  unfold State.mirrorImf
  split
  · rfl
  · split <;> rfl
@[simp] theorem State.mirrorImf_nmip (s : State) (a : Word) (v : Byte) : (s.mirrorImf a v).nmip = s.nmip := by
  unfold State.mirrorImf
  split
  · rfl
  · split <;> rfl
@[simp] theorem State.mirrorImf_nmil (s : State) (a : Word) (v : Byte) : (s.mirrorImf a v).nmil = s.nmil := by
  unfold State.mirrorImf
  split
  · rfl
  · split <;> rfl
@[simp] theorem State.mirrorImf_mem (s : State) (a : Word) (v : Byte) : (s.mirrorImf a v).mem = s.mem := by
  unfold State.mirrorImf
  split
  · rfl
  · split <;> rfl
@[simp] theorem State.mirrorImf_io (s : State) (a : Word) (v : Byte) : (s.mirrorImf a v).io = s.io := by
  unfold State.mirrorImf
  split
  · rfl
  · split <;> rfl
@[simp] theorem State.mirrorImf_params (s : State) (a : Word) (v : Byte) : (s.mirrorImf a v).params = s.params := by
  unfold State.mirrorImf
  split
  · rfl
  · split <;> rfl
@[simp] theorem State.mirrorImf_inputs (s : State) (a : Word) (v : Byte) : (s.mirrorImf a v).inputs = s.inputs := by
  unfold State.mirrorImf
  split
  · rfl
  · split <;> rfl
@[simp] theorem State.mirrorImf_later (s : State) (a : Word) (v : Byte) : (s.mirrorImf a v).later = s.later := by
  unfold State.mirrorImf
  split
  · rfl
  · split <;> rfl
@[simp] theorem State.mirrorImf_start (s : State) (a : Word) (v : Byte) : (s.mirrorImf a v).start = s.start := by
  unfold State.mirrorImf
  split
  · rfl
  · split <;> rfl
@[simp] theorem State.mirrorImf_draws (s : State) (a : Word) (v : Byte) : (s.mirrorImf a v).draws = s.draws := by
  unfold State.mirrorImf
  split
  · rfl
  · split <;> rfl
@[simp] theorem State.mirrorImf_bus (s : State) (a : Word) (v : Byte) : (s.mirrorImf a v).bus = s.bus := by
  unfold State.mirrorImf
  split
  · rfl
  · split <;> rfl
@[simp] theorem State.mirrorImf_ack (s : State) (a : Word) (v : Byte) : (s.mirrorImf a v).ack = s.ack := by
  unfold State.mirrorImf
  split
  · rfl
  · split <;> rfl
@[simp] theorem State.mirrorImf_events (s : State) (a : Word) (v : Byte) : (s.mirrorImf a v).events = s.events := by
  unfold State.mirrorImf
  split
  · rfl
  · split <;> rfl

/-! `State.memWrite` -/

@[simp] theorem State.memWrite_bank (s : State) (a : Word) (v : Byte) : (s.memWrite a v).bank = s.bank := by
  unfold State.memWrite
  simp only [State.mirrorImf_bank]
  split <;> rfl
@[simp] theorem State.memWrite_rbs (s : State) (a : Word) (v : Byte) : (s.memWrite a v).rbs = s.rbs := by
  unfold State.memWrite
  simp only [State.mirrorImf_rbs]
  split <;> rfl
@[simp] theorem State.memWrite_pc (s : State) (a : Word) (v : Byte) : (s.memWrite a v).pc = s.pc := by
  unfold State.memWrite
  simp only [State.mirrorImf_pc]
  split <;> rfl
@[simp] theorem State.memWrite_sp (s : State) (a : Word) (v : Byte) : (s.memWrite a v).sp = s.sp := by
  unfold State.memWrite
  simp only [State.mirrorImf_sp]
  split <;> rfl
@[simp] theorem State.memWrite_flags (s : State) (a : Word) (v : Byte) : (s.memWrite a v).flags = s.flags := by
  unfold State.memWrite
  simp only [State.mirrorImf_flags]
  split <;> rfl
@[simp] theorem State.memWrite_nmip (s : State) (a : Word) (v : Byte) : (s.memWrite a v).nmip = s.nmip := by
  unfold State.memWrite
  simp only [State.mirrorImf_nmip]
  split <;> rfl
@[simp] theorem State.memWrite_nmil (s : State) (a : Word) (v : Byte) : (s.memWrite a v).nmil = s.nmil := by
  unfold State.memWrite
  simp only [State.mirrorImf_nmil]
  split <;> rfl
@[simp] theorem State.memWrite_io (s : State) (a : Word) (v : Byte) : (s.memWrite a v).io = s.io := by
  unfold State.memWrite
  simp only [State.mirrorImf_io]
  split <;> rfl
@[simp] theorem State.memWrite_params (s : State) (a : Word) (v : Byte) : (s.memWrite a v).params = s.params := by
  unfold State.memWrite
  simp only [State.mirrorImf_params]
  split <;> rfl
@[simp] theorem State.memWrite_inputs (s : State) (a : Word) (v : Byte) : (s.memWrite a v).inputs = s.inputs := by
  unfold State.memWrite
  simp only [State.mirrorImf_inputs]
  split <;> rfl
@[simp] theorem State.memWrite_later (s : State) (a : Word) (v : Byte) : (s.memWrite a v).later = s.later := by
  unfold State.memWrite
  simp only [State.mirrorImf_later]
  split <;> rfl
@[simp] theorem State.memWrite_start (s : State) (a : Word) (v : Byte) : (s.memWrite a v).start = s.start := by
  unfold State.memWrite
  simp only [State.mirrorImf_start]
  split <;> rfl
@[simp] theorem State.memWrite_draws (s : State) (a : Word) (v : Byte) : (s.memWrite a v).draws = s.draws := by
  unfold State.memWrite
  simp only [State.mirrorImf_draws]
  split <;> rfl
@[simp] theorem State.memWrite_ack (s : State) (a : Word) (v : Byte) : (s.memWrite a v).ack = s.ack := by
  unfold State.memWrite
  simp only [State.mirrorImf_ack]
  split <;> rfl
@[simp] theorem State.memWrite_events (s : State) (a : Word) (v : Byte) : (s.memWrite a v).events = s.events := by
  unfold State.memWrite
  simp only [State.mirrorImf_events]
  split <;> rfl

/-! `State.memWrite16` -/

@[simp] theorem State.memWrite16_bank (s : State) (a : Word) (v : Word) : (s.memWrite16 a v).bank = s.bank := by simp [State.memWrite16]
@[simp] theorem State.memWrite16_rbs (s : State) (a : Word) (v : Word) : (s.memWrite16 a v).rbs = s.rbs := by simp [State.memWrite16]
@[simp] theorem State.memWrite16_pc (s : State) (a : Word) (v : Word) : (s.memWrite16 a v).pc = s.pc := by simp [State.memWrite16]
@[simp] theorem State.memWrite16_sp (s : State) (a : Word) (v : Word) : (s.memWrite16 a v).sp = s.sp := by simp [State.memWrite16]
@[simp] theorem State.memWrite16_flags (s : State) (a : Word) (v : Word) : (s.memWrite16 a v).flags = s.flags := by simp [State.memWrite16]
@[simp] theorem State.memWrite16_nmip (s : State) (a : Word) (v : Word) : (s.memWrite16 a v).nmip = s.nmip := by simp [State.memWrite16]
@[simp] theorem State.memWrite16_nmil (s : State) (a : Word) (v : Word) : (s.memWrite16 a v).nmil = s.nmil := by simp [State.memWrite16]
@[simp] theorem State.memWrite16_io (s : State) (a : Word) (v : Word) : (s.memWrite16 a v).io = s.io := by simp [State.memWrite16]
@[simp] theorem State.memWrite16_params (s : State) (a : Word) (v : Word) : (s.memWrite16 a v).params = s.params := by simp [State.memWrite16]
@[simp] theorem State.memWrite16_inputs (s : State) (a : Word) (v : Word) : (s.memWrite16 a v).inputs = s.inputs := by simp [State.memWrite16]
@[simp] theorem State.memWrite16_later (s : State) (a : Word) (v : Word) : (s.memWrite16 a v).later = s.later := by simp [State.memWrite16]
@[simp] theorem State.memWrite16_start (s : State) (a : Word) (v : Word) : (s.memWrite16 a v).start = s.start := by simp [State.memWrite16]
@[simp] theorem State.memWrite16_draws (s : State) (a : Word) (v : Word) : (s.memWrite16 a v).draws = s.draws := by simp [State.memWrite16]
@[simp] theorem State.memWrite16_ack (s : State) (a : Word) (v : Word) : (s.memWrite16 a v).ack = s.ack := by simp [State.memWrite16]
@[simp] theorem State.memWrite16_events (s : State) (a : Word) (v : Word) : (s.memWrite16 a v).events = s.events := by simp [State.memWrite16]

/-! `State.setBankReg` -/

@[simp] theorem State.setBankReg_rbs (s : State) (n : BitVec 4) (r : Reg) (v : Byte) : (s.setBankReg n r v).rbs = s.rbs := by unfold State.setBankReg; split <;> rfl
@[simp] theorem State.setBankReg_pc (s : State) (n : BitVec 4) (r : Reg) (v : Byte) : (s.setBankReg n r v).pc = s.pc := by unfold State.setBankReg; split <;> rfl
@[simp] theorem State.setBankReg_sp (s : State) (n : BitVec 4) (r : Reg) (v : Byte) : (s.setBankReg n r v).sp = s.sp := by unfold State.setBankReg; split <;> rfl
@[simp] theorem State.setBankReg_flags (s : State) (n : BitVec 4) (r : Reg) (v : Byte) : (s.setBankReg n r v).flags = s.flags := by unfold State.setBankReg; split <;> rfl
@[simp] theorem State.setBankReg_imf (s : State) (n : BitVec 4) (r : Reg) (v : Byte) : (s.setBankReg n r v).imf = s.imf := by unfold State.setBankReg; split <;> rfl
@[simp] theorem State.setBankReg_nmip (s : State) (n : BitVec 4) (r : Reg) (v : Byte) : (s.setBankReg n r v).nmip = s.nmip := by unfold State.setBankReg; split <;> rfl
@[simp] theorem State.setBankReg_nmil (s : State) (n : BitVec 4) (r : Reg) (v : Byte) : (s.setBankReg n r v).nmil = s.nmil := by unfold State.setBankReg; split <;> rfl
@[simp] theorem State.setBankReg_io (s : State) (n : BitVec 4) (r : Reg) (v : Byte) : (s.setBankReg n r v).io = s.io := by unfold State.setBankReg; split <;> rfl
@[simp] theorem State.setBankReg_params (s : State) (n : BitVec 4) (r : Reg) (v : Byte) : (s.setBankReg n r v).params = s.params := by unfold State.setBankReg; split <;> rfl
@[simp] theorem State.setBankReg_inputs (s : State) (n : BitVec 4) (r : Reg) (v : Byte) : (s.setBankReg n r v).inputs = s.inputs := by unfold State.setBankReg; split <;> rfl
@[simp] theorem State.setBankReg_later (s : State) (n : BitVec 4) (r : Reg) (v : Byte) : (s.setBankReg n r v).later = s.later := by unfold State.setBankReg; split <;> rfl
@[simp] theorem State.setBankReg_start (s : State) (n : BitVec 4) (r : Reg) (v : Byte) : (s.setBankReg n r v).start = s.start := by unfold State.setBankReg; split <;> rfl
@[simp] theorem State.setBankReg_draws (s : State) (n : BitVec 4) (r : Reg) (v : Byte) : (s.setBankReg n r v).draws = s.draws := by unfold State.setBankReg; split <;> rfl
@[simp] theorem State.setBankReg_bus (s : State) (n : BitVec 4) (r : Reg) (v : Byte) : (s.setBankReg n r v).bus = s.bus := by unfold State.setBankReg; split <;> rfl
@[simp] theorem State.setBankReg_ack (s : State) (n : BitVec 4) (r : Reg) (v : Byte) : (s.setBankReg n r v).ack = s.ack := by unfold State.setBankReg; split <;> rfl
@[simp] theorem State.setBankReg_events (s : State) (n : BitVec 4) (r : Reg) (v : Byte) : (s.setBankReg n r v).events = s.events := by unfold State.setBankReg; split <;> rfl

/-! `State.setReg` -/

@[simp] theorem State.setReg_rbs (s : State) (r : Reg) (v : Byte) : (s.setReg r v).rbs = s.rbs := by simp [State.setReg]
@[simp] theorem State.setReg_pc (s : State) (r : Reg) (v : Byte) : (s.setReg r v).pc = s.pc := by simp [State.setReg]
@[simp] theorem State.setReg_sp (s : State) (r : Reg) (v : Byte) : (s.setReg r v).sp = s.sp := by simp [State.setReg]
@[simp] theorem State.setReg_flags (s : State) (r : Reg) (v : Byte) : (s.setReg r v).flags = s.flags := by simp [State.setReg]
@[simp] theorem State.setReg_imf (s : State) (r : Reg) (v : Byte) : (s.setReg r v).imf = s.imf := by simp [State.setReg]
@[simp] theorem State.setReg_nmip (s : State) (r : Reg) (v : Byte) : (s.setReg r v).nmip = s.nmip := by simp [State.setReg]
@[simp] theorem State.setReg_nmil (s : State) (r : Reg) (v : Byte) : (s.setReg r v).nmil = s.nmil := by simp [State.setReg]
@[simp] theorem State.setReg_io (s : State) (r : Reg) (v : Byte) : (s.setReg r v).io = s.io := by simp [State.setReg]
@[simp] theorem State.setReg_params (s : State) (r : Reg) (v : Byte) : (s.setReg r v).params = s.params := by simp [State.setReg]
@[simp] theorem State.setReg_inputs (s : State) (r : Reg) (v : Byte) : (s.setReg r v).inputs = s.inputs := by simp [State.setReg]
@[simp] theorem State.setReg_later (s : State) (r : Reg) (v : Byte) : (s.setReg r v).later = s.later := by simp [State.setReg]
@[simp] theorem State.setReg_start (s : State) (r : Reg) (v : Byte) : (s.setReg r v).start = s.start := by simp [State.setReg]
@[simp] theorem State.setReg_draws (s : State) (r : Reg) (v : Byte) : (s.setReg r v).draws = s.draws := by simp [State.setReg]
@[simp] theorem State.setReg_bus (s : State) (r : Reg) (v : Byte) : (s.setReg r v).bus = s.bus := by simp [State.setReg]
@[simp] theorem State.setReg_ack (s : State) (r : Reg) (v : Byte) : (s.setReg r v).ack = s.ack := by simp [State.setReg]
@[simp] theorem State.setReg_events (s : State) (r : Reg) (v : Byte) : (s.setReg r v).events = s.events := by simp [State.setReg]

/-! `State.setPair` -/

@[simp] theorem State.setPair_rbs (s : State) (p : Pair) (v : Word) : (s.setPair p v).rbs = s.rbs := by simp [State.setPair]
@[simp] theorem State.setPair_pc (s : State) (p : Pair) (v : Word) : (s.setPair p v).pc = s.pc := by simp [State.setPair]
@[simp] theorem State.setPair_sp (s : State) (p : Pair) (v : Word) : (s.setPair p v).sp = s.sp := by simp [State.setPair]
@[simp] theorem State.setPair_flags (s : State) (p : Pair) (v : Word) : (s.setPair p v).flags = s.flags := by simp [State.setPair]
@[simp] theorem State.setPair_imf (s : State) (p : Pair) (v : Word) : (s.setPair p v).imf = s.imf := by simp [State.setPair]
@[simp] theorem State.setPair_nmip (s : State) (p : Pair) (v : Word) : (s.setPair p v).nmip = s.nmip := by simp [State.setPair]
@[simp] theorem State.setPair_nmil (s : State) (p : Pair) (v : Word) : (s.setPair p v).nmil = s.nmil := by simp [State.setPair]
@[simp] theorem State.setPair_io (s : State) (p : Pair) (v : Word) : (s.setPair p v).io = s.io := by simp [State.setPair]
@[simp] theorem State.setPair_params (s : State) (p : Pair) (v : Word) : (s.setPair p v).params = s.params := by simp [State.setPair]
@[simp] theorem State.setPair_inputs (s : State) (p : Pair) (v : Word) : (s.setPair p v).inputs = s.inputs := by simp [State.setPair]
@[simp] theorem State.setPair_later (s : State) (p : Pair) (v : Word) : (s.setPair p v).later = s.later := by simp [State.setPair]
@[simp] theorem State.setPair_start (s : State) (p : Pair) (v : Word) : (s.setPair p v).start = s.start := by simp [State.setPair]
@[simp] theorem State.setPair_draws (s : State) (p : Pair) (v : Word) : (s.setPair p v).draws = s.draws := by simp [State.setPair]
@[simp] theorem State.setPair_bus (s : State) (p : Pair) (v : Word) : (s.setPair p v).bus = s.bus := by simp [State.setPair]
@[simp] theorem State.setPair_ack (s : State) (p : Pair) (v : Word) : (s.setPair p v).ack = s.ack := by simp [State.setPair]
@[simp] theorem State.setPair_events (s : State) (p : Pair) (v : Word) : (s.setPair p v).events = s.events := by simp [State.setPair]

/-! `State.setPsw` -/

@[simp] theorem State.setPsw_bank (s : State) (v : Byte) : (s.setPsw v).bank = s.bank := by unfold State.setPsw; split <;> rfl
@[simp] theorem State.setPsw_pc (s : State) (v : Byte) : (s.setPsw v).pc = s.pc := by unfold State.setPsw; split <;> rfl
@[simp] theorem State.setPsw_sp (s : State) (v : Byte) : (s.setPsw v).sp = s.sp := by unfold State.setPsw; split <;> rfl
@[simp] theorem State.setPsw_imf (s : State) (v : Byte) : (s.setPsw v).imf = s.imf := by unfold State.setPsw; split <;> rfl
@[simp] theorem State.setPsw_nmip (s : State) (v : Byte) : (s.setPsw v).nmip = s.nmip := by unfold State.setPsw; split <;> rfl
@[simp] theorem State.setPsw_nmil (s : State) (v : Byte) : (s.setPsw v).nmil = s.nmil := by unfold State.setPsw; split <;> rfl
@[simp] theorem State.setPsw_mem (s : State) (v : Byte) : (s.setPsw v).mem = s.mem := by unfold State.setPsw; split <;> rfl
@[simp] theorem State.setPsw_io (s : State) (v : Byte) : (s.setPsw v).io = s.io := by unfold State.setPsw; split <;> rfl
@[simp] theorem State.setPsw_params (s : State) (v : Byte) : (s.setPsw v).params = s.params := by unfold State.setPsw; split <;> rfl
@[simp] theorem State.setPsw_inputs (s : State) (v : Byte) : (s.setPsw v).inputs = s.inputs := by unfold State.setPsw; split <;> rfl
@[simp] theorem State.setPsw_later (s : State) (v : Byte) : (s.setPsw v).later = s.later := by unfold State.setPsw; split <;> rfl
@[simp] theorem State.setPsw_start (s : State) (v : Byte) : (s.setPsw v).start = s.start := by unfold State.setPsw; split <;> rfl
@[simp] theorem State.setPsw_draws (s : State) (v : Byte) : (s.setPsw v).draws = s.draws := by unfold State.setPsw; split <;> rfl
@[simp] theorem State.setPsw_bus (s : State) (v : Byte) : (s.setPsw v).bus = s.bus := by unfold State.setPsw; split <;> rfl
@[simp] theorem State.setPsw_ack (s : State) (v : Byte) : (s.setPsw v).ack = s.ack := by unfold State.setPsw; split <;> rfl
@[simp] theorem State.setPsw_events (s : State) (v : Byte) : (s.setPsw v).events = s.events := by unfold State.setPsw; split <;> rfl

/-! `State.push8` -/

@[simp] theorem State.push8_bank (s : State) (v : Byte) : (s.push8 v).bank = s.bank := by simp [State.push8]
@[simp] theorem State.push8_rbs (s : State) (v : Byte) : (s.push8 v).rbs = s.rbs := by simp [State.push8]
@[simp] theorem State.push8_pc (s : State) (v : Byte) : (s.push8 v).pc = s.pc := by simp [State.push8]
@[simp] theorem State.push8_flags (s : State) (v : Byte) : (s.push8 v).flags = s.flags := by simp [State.push8]
@[simp] theorem State.push8_nmip (s : State) (v : Byte) : (s.push8 v).nmip = s.nmip := by simp [State.push8]
@[simp] theorem State.push8_nmil (s : State) (v : Byte) : (s.push8 v).nmil = s.nmil := by simp [State.push8]
@[simp] theorem State.push8_io (s : State) (v : Byte) : (s.push8 v).io = s.io := by simp [State.push8]
@[simp] theorem State.push8_params (s : State) (v : Byte) : (s.push8 v).params = s.params := by simp [State.push8]
@[simp] theorem State.push8_inputs (s : State) (v : Byte) : (s.push8 v).inputs = s.inputs := by simp [State.push8]
@[simp] theorem State.push8_later (s : State) (v : Byte) : (s.push8 v).later = s.later := by simp [State.push8]
@[simp] theorem State.push8_start (s : State) (v : Byte) : (s.push8 v).start = s.start := by simp [State.push8]
@[simp] theorem State.push8_draws (s : State) (v : Byte) : (s.push8 v).draws = s.draws := by simp [State.push8]
@[simp] theorem State.push8_ack (s : State) (v : Byte) : (s.push8 v).ack = s.ack := by simp [State.push8]
@[simp] theorem State.push8_events (s : State) (v : Byte) : (s.push8 v).events = s.events := by simp [State.push8]

@[simp] theorem State.push8_sp (s : State) (v : Byte) : (s.push8 v).sp = s.sp - 1 := by simp [State.push8]

/-! `State.push16` -/

@[simp] theorem State.push16_bank (s : State) (v : Word) : (s.push16 v).bank = s.bank := by simp [State.push16]
@[simp] theorem State.push16_rbs (s : State) (v : Word) : (s.push16 v).rbs = s.rbs := by simp [State.push16]
@[simp] theorem State.push16_pc (s : State) (v : Word) : (s.push16 v).pc = s.pc := by simp [State.push16]
@[simp] theorem State.push16_flags (s : State) (v : Word) : (s.push16 v).flags = s.flags := by simp [State.push16]
@[simp] theorem State.push16_nmip (s : State) (v : Word) : (s.push16 v).nmip = s.nmip := by simp [State.push16]
@[simp] theorem State.push16_nmil (s : State) (v : Word) : (s.push16 v).nmil = s.nmil := by simp [State.push16]
@[simp] theorem State.push16_io (s : State) (v : Word) : (s.push16 v).io = s.io := by simp [State.push16]
@[simp] theorem State.push16_params (s : State) (v : Word) : (s.push16 v).params = s.params := by simp [State.push16]
@[simp] theorem State.push16_inputs (s : State) (v : Word) : (s.push16 v).inputs = s.inputs := by simp [State.push16]
@[simp] theorem State.push16_later (s : State) (v : Word) : (s.push16 v).later = s.later := by simp [State.push16]
@[simp] theorem State.push16_start (s : State) (v : Word) : (s.push16 v).start = s.start := by simp [State.push16]
@[simp] theorem State.push16_draws (s : State) (v : Word) : (s.push16 v).draws = s.draws := by simp [State.push16]
@[simp] theorem State.push16_ack (s : State) (v : Word) : (s.push16 v).ack = s.ack := by simp [State.push16]
@[simp] theorem State.push16_events (s : State) (v : Word) : (s.push16 v).events = s.events := by simp [State.push16]

@[simp] theorem State.push16_sp (s : State) (v : Word) : (s.push16 v).sp = s.sp - 1 - 1 := by simp [State.push16]

/-! `State.pop8` -/

@[simp] theorem State.pop8_bank (s : State) : (s.pop8.2).bank = s.bank := by simp [State.pop8]
@[simp] theorem State.pop8_rbs (s : State) : (s.pop8.2).rbs = s.rbs := by simp [State.pop8]
@[simp] theorem State.pop8_pc (s : State) : (s.pop8.2).pc = s.pc := by simp [State.pop8]
@[simp] theorem State.pop8_flags (s : State) : (s.pop8.2).flags = s.flags := by simp [State.pop8]
@[simp] theorem State.pop8_imf (s : State) : (s.pop8.2).imf = s.imf := by simp [State.pop8]
@[simp] theorem State.pop8_nmip (s : State) : (s.pop8.2).nmip = s.nmip := by simp [State.pop8]
@[simp] theorem State.pop8_nmil (s : State) : (s.pop8.2).nmil = s.nmil := by simp [State.pop8]
@[simp] theorem State.pop8_mem (s : State) : (s.pop8.2).mem = s.mem := by simp [State.pop8]
@[simp] theorem State.pop8_io (s : State) : (s.pop8.2).io = s.io := by simp [State.pop8]
@[simp] theorem State.pop8_params (s : State) : (s.pop8.2).params = s.params := by simp [State.pop8]
@[simp] theorem State.pop8_inputs (s : State) : (s.pop8.2).inputs = s.inputs := by simp [State.pop8]
@[simp] theorem State.pop8_later (s : State) : (s.pop8.2).later = s.later := by simp [State.pop8]
@[simp] theorem State.pop8_start (s : State) : (s.pop8.2).start = s.start := by simp [State.pop8]
@[simp] theorem State.pop8_ack (s : State) : (s.pop8.2).ack = s.ack := by simp [State.pop8]
@[simp] theorem State.pop8_events (s : State) : (s.pop8.2).events = s.events := by simp [State.pop8]

@[simp] theorem State.pop8_sp (s : State) : s.pop8.2.sp = s.sp + 1 := rfl

/-! `State.pop16` -/

@[simp] theorem State.pop16_bank (s : State) : (s.pop16.2).bank = s.bank := by simp [State.pop16]
@[simp] theorem State.pop16_rbs (s : State) : (s.pop16.2).rbs = s.rbs := by simp [State.pop16]
@[simp] theorem State.pop16_pc (s : State) : (s.pop16.2).pc = s.pc := by simp [State.pop16]
@[simp] theorem State.pop16_flags (s : State) : (s.pop16.2).flags = s.flags := by simp [State.pop16]
@[simp] theorem State.pop16_imf (s : State) : (s.pop16.2).imf = s.imf := by simp [State.pop16]
@[simp] theorem State.pop16_nmip (s : State) : (s.pop16.2).nmip = s.nmip := by simp [State.pop16]
@[simp] theorem State.pop16_nmil (s : State) : (s.pop16.2).nmil = s.nmil := by simp [State.pop16]
@[simp] theorem State.pop16_mem (s : State) : (s.pop16.2).mem = s.mem := by simp [State.pop16]
@[simp] theorem State.pop16_io (s : State) : (s.pop16.2).io = s.io := by simp [State.pop16]
@[simp] theorem State.pop16_params (s : State) : (s.pop16.2).params = s.params := by simp [State.pop16]
@[simp] theorem State.pop16_inputs (s : State) : (s.pop16.2).inputs = s.inputs := by simp [State.pop16]
@[simp] theorem State.pop16_later (s : State) : (s.pop16.2).later = s.later := by simp [State.pop16]
@[simp] theorem State.pop16_start (s : State) : (s.pop16.2).start = s.start := by simp [State.pop16]
@[simp] theorem State.pop16_ack (s : State) : (s.pop16.2).ack = s.ack := by simp [State.pop16]
@[simp] theorem State.pop16_events (s : State) : (s.pop16.2).events = s.events := by simp [State.pop16]

@[simp] theorem State.pop16_sp (s : State) : s.pop16.2.sp = s.sp + 1 + 1 := by simp [State.pop16]

/-! `State.loadVector` -/

@[simp] theorem State.loadVector_bank (s : State) (v : Word) : (s.loadVector v).bank = s.bank := by unfold State.loadVector; split <;> simp
@[simp] theorem State.loadVector_rbs (s : State) (v : Word) : (s.loadVector v).rbs = s.rbs := by unfold State.loadVector; split <;> simp
@[simp] theorem State.loadVector_sp (s : State) (v : Word) : (s.loadVector v).sp = s.sp := by unfold State.loadVector; split <;> simp
@[simp] theorem State.loadVector_flags (s : State) (v : Word) : (s.loadVector v).flags = s.flags := by unfold State.loadVector; split <;> simp
@[simp] theorem State.loadVector_imf (s : State) (v : Word) : (s.loadVector v).imf = s.imf := by unfold State.loadVector; split <;> simp
@[simp] theorem State.loadVector_nmip (s : State) (v : Word) : (s.loadVector v).nmip = s.nmip := by unfold State.loadVector; split <;> simp
@[simp] theorem State.loadVector_nmil (s : State) (v : Word) : (s.loadVector v).nmil = s.nmil := by unfold State.loadVector; split <;> simp
@[simp] theorem State.loadVector_mem (s : State) (v : Word) : (s.loadVector v).mem = s.mem := by unfold State.loadVector; split <;> simp
@[simp] theorem State.loadVector_io (s : State) (v : Word) : (s.loadVector v).io = s.io := by unfold State.loadVector; split <;> simp
@[simp] theorem State.loadVector_params (s : State) (v : Word) : (s.loadVector v).params = s.params := by unfold State.loadVector; split <;> simp
@[simp] theorem State.loadVector_inputs (s : State) (v : Word) : (s.loadVector v).inputs = s.inputs := by unfold State.loadVector; split <;> simp
@[simp] theorem State.loadVector_later (s : State) (v : Word) : (s.loadVector v).later = s.later := by unfold State.loadVector; split <;> simp
@[simp] theorem State.loadVector_start (s : State) (v : Word) : (s.loadVector v).start = s.start := by unfold State.loadVector; split <;> simp
@[simp] theorem State.loadVector_ack (s : State) (v : Word) : (s.loadVector v).ack = s.ack := by unfold State.loadVector; split <;> simp
@[simp] theorem State.loadVector_events (s : State) (v : Word) : (s.loadVector v).events = s.events := by unfold State.loadVector; split <;> simp

/-! `State.enter` -/

@[simp] theorem State.enter_bank (s : State) (v : Word) : (s.enter v).bank = s.bank := by simp [State.enter]
@[simp] theorem State.enter_rbs (s : State) (v : Word) : (s.enter v).rbs = s.rbs := by simp [State.enter]
@[simp] theorem State.enter_nmip (s : State) (v : Word) : (s.enter v).nmip = s.nmip := by simp [State.enter]
@[simp] theorem State.enter_nmil (s : State) (v : Word) : (s.enter v).nmil = s.nmil := by simp [State.enter]
@[simp] theorem State.enter_io (s : State) (v : Word) : (s.enter v).io = s.io := by simp [State.enter]
@[simp] theorem State.enter_params (s : State) (v : Word) : (s.enter v).params = s.params := by simp [State.enter]
@[simp] theorem State.enter_inputs (s : State) (v : Word) : (s.enter v).inputs = s.inputs := by simp [State.enter]
@[simp] theorem State.enter_later (s : State) (v : Word) : (s.enter v).later = s.later := by simp [State.enter]
@[simp] theorem State.enter_start (s : State) (v : Word) : (s.enter v).start = s.start := by simp [State.enter]
@[simp] theorem State.enter_ack (s : State) (v : Word) : (s.enter v).ack = s.ack := by simp [State.enter]
@[simp] theorem State.enter_events (s : State) (v : Word) : (s.enter v).events = s.events := by simp [State.enter]

@[simp] theorem State.enter_sp (s : State) (v : Word) : (s.enter v).sp = s.sp - 1 - 1 - 1 := by simp [State.enter]
@[simp] theorem State.enter_imf (s : State) (v : Word) : (s.enter v).imf = false := by simp [State.enter]
@[simp] theorem State.enter_flags (s : State) (v : Word) : (s.enter v).flags = { s.flags with jf := false } := by
  simp [State.enter]

/-! `State.leave` -/

@[simp] theorem State.leave_bank (s : State) : (s.leave).bank = s.bank := by simp [State.leave]
@[simp] theorem State.leave_imf (s : State) : (s.leave).imf = s.imf := by simp [State.leave]
@[simp] theorem State.leave_nmip (s : State) : (s.leave).nmip = s.nmip := by simp [State.leave]
@[simp] theorem State.leave_nmil (s : State) : (s.leave).nmil = s.nmil := by simp [State.leave]
@[simp] theorem State.leave_mem (s : State) : (s.leave).mem = s.mem := by simp [State.leave]
@[simp] theorem State.leave_io (s : State) : (s.leave).io = s.io := by simp [State.leave]
@[simp] theorem State.leave_params (s : State) : (s.leave).params = s.params := by simp [State.leave]
@[simp] theorem State.leave_inputs (s : State) : (s.leave).inputs = s.inputs := by simp [State.leave]
@[simp] theorem State.leave_later (s : State) : (s.leave).later = s.later := by simp [State.leave]
@[simp] theorem State.leave_start (s : State) : (s.leave).start = s.start := by simp [State.leave]
@[simp] theorem State.leave_ack (s : State) : (s.leave).ack = s.ack := by simp [State.leave]
@[simp] theorem State.leave_events (s : State) : (s.leave).events = s.events := by simp [State.leave]

@[simp] theorem State.leave_sp (s : State) : s.leave.sp = s.sp + 1 + 1 + 1 := by simp [State.leave]

/-! `State.resolve` -/

@[simp] theorem State.resolve_rbs (s : State) (m : Mode) : ((s.resolve m).2).rbs = s.rbs := by cases m <;> simp [State.resolve]
@[simp] theorem State.resolve_pc (s : State) (m : Mode) : ((s.resolve m).2).pc = s.pc := by cases m <;> simp [State.resolve]
@[simp] theorem State.resolve_sp (s : State) (m : Mode) : ((s.resolve m).2).sp = s.sp := by cases m <;> simp [State.resolve]
@[simp] theorem State.resolve_flags (s : State) (m : Mode) : ((s.resolve m).2).flags = s.flags := by cases m <;> simp [State.resolve]
@[simp] theorem State.resolve_imf (s : State) (m : Mode) : ((s.resolve m).2).imf = s.imf := by cases m <;> simp [State.resolve]
@[simp] theorem State.resolve_nmip (s : State) (m : Mode) : ((s.resolve m).2).nmip = s.nmip := by cases m <;> simp [State.resolve]
@[simp] theorem State.resolve_nmil (s : State) (m : Mode) : ((s.resolve m).2).nmil = s.nmil := by cases m <;> simp [State.resolve]
@[simp] theorem State.resolve_io (s : State) (m : Mode) : ((s.resolve m).2).io = s.io := by cases m <;> simp [State.resolve]
@[simp] theorem State.resolve_params (s : State) (m : Mode) : ((s.resolve m).2).params = s.params := by cases m <;> simp [State.resolve]
@[simp] theorem State.resolve_inputs (s : State) (m : Mode) : ((s.resolve m).2).inputs = s.inputs := by cases m <;> simp [State.resolve]
@[simp] theorem State.resolve_later (s : State) (m : Mode) : ((s.resolve m).2).later = s.later := by cases m <;> simp [State.resolve]
@[simp] theorem State.resolve_start (s : State) (m : Mode) : ((s.resolve m).2).start = s.start := by cases m <;> simp [State.resolve]
@[simp] theorem State.resolve_draws (s : State) (m : Mode) : ((s.resolve m).2).draws = s.draws := by cases m <;> simp [State.resolve]
@[simp] theorem State.resolve_bus (s : State) (m : Mode) : ((s.resolve m).2).bus = s.bus := by cases m <;> simp [State.resolve]
@[simp] theorem State.resolve_ack (s : State) (m : Mode) : ((s.resolve m).2).ack = s.ack := by cases m <;> simp [State.resolve]
@[simp] theorem State.resolve_events (s : State) (m : Mode) : ((s.resolve m).2).events = s.events := by cases m <;> simp [State.resolve]

/-! `State.fetch8` -/

@[simp] theorem State.fetch8_bank (s : State) : (s.fetch8.2).bank = s.bank := by simp [State.fetch8]
@[simp] theorem State.fetch8_rbs (s : State) : (s.fetch8.2).rbs = s.rbs := by simp [State.fetch8]
@[simp] theorem State.fetch8_sp (s : State) : (s.fetch8.2).sp = s.sp := by simp [State.fetch8]
@[simp] theorem State.fetch8_flags (s : State) : (s.fetch8.2).flags = s.flags := by simp [State.fetch8]
@[simp] theorem State.fetch8_imf (s : State) : (s.fetch8.2).imf = s.imf := by simp [State.fetch8]
@[simp] theorem State.fetch8_nmip (s : State) : (s.fetch8.2).nmip = s.nmip := by simp [State.fetch8]
@[simp] theorem State.fetch8_nmil (s : State) : (s.fetch8.2).nmil = s.nmil := by simp [State.fetch8]
@[simp] theorem State.fetch8_mem (s : State) : (s.fetch8.2).mem = s.mem := by simp [State.fetch8]
@[simp] theorem State.fetch8_io (s : State) : (s.fetch8.2).io = s.io := by simp [State.fetch8]
@[simp] theorem State.fetch8_params (s : State) : (s.fetch8.2).params = s.params := by simp [State.fetch8]
@[simp] theorem State.fetch8_inputs (s : State) : (s.fetch8.2).inputs = s.inputs := by simp [State.fetch8]
@[simp] theorem State.fetch8_later (s : State) : (s.fetch8.2).later = s.later := by simp [State.fetch8]
@[simp] theorem State.fetch8_start (s : State) : (s.fetch8.2).start = s.start := by simp [State.fetch8]
@[simp] theorem State.fetch8_ack (s : State) : (s.fetch8.2).ack = s.ack := by simp [State.fetch8]
@[simp] theorem State.fetch8_events (s : State) : (s.fetch8.2).events = s.events := by simp [State.fetch8]

@[simp] theorem State.fetch8_pc (s : State) : s.fetch8.2.pc = s.pc + 1 := rfl

@[simp] theorem State.fetchInstr_bank (s : State) (got : List Byte) (n : Nat) :
    (s.fetchInstr got n).2.2.bank = s.bank := by
  induction n generalizing s got with
  | zero => rfl
  | succ n ih => unfold State.fetchInstr; dsimp only; split <;> simp [ih]
@[simp] theorem State.fetchInstr_rbs (s : State) (got : List Byte) (n : Nat) :
    (s.fetchInstr got n).2.2.rbs = s.rbs := by
  induction n generalizing s got with
  | zero => rfl
  | succ n ih => unfold State.fetchInstr; dsimp only; split <;> simp [ih]
@[simp] theorem State.fetchInstr_sp (s : State) (got : List Byte) (n : Nat) :
    (s.fetchInstr got n).2.2.sp = s.sp := by
  induction n generalizing s got with
  | zero => rfl
  | succ n ih => unfold State.fetchInstr; dsimp only; split <;> simp [ih]
@[simp] theorem State.fetchInstr_flags (s : State) (got : List Byte) (n : Nat) :
    (s.fetchInstr got n).2.2.flags = s.flags := by
  induction n generalizing s got with
  | zero => rfl
  | succ n ih => unfold State.fetchInstr; dsimp only; split <;> simp [ih]
@[simp] theorem State.fetchInstr_imf (s : State) (got : List Byte) (n : Nat) :
    (s.fetchInstr got n).2.2.imf = s.imf := by
  induction n generalizing s got with
  | zero => rfl
  | succ n ih => unfold State.fetchInstr; dsimp only; split <;> simp [ih]
@[simp] theorem State.fetchInstr_nmip (s : State) (got : List Byte) (n : Nat) :
    (s.fetchInstr got n).2.2.nmip = s.nmip := by
  induction n generalizing s got with
  | zero => rfl
  | succ n ih => unfold State.fetchInstr; dsimp only; split <;> simp [ih]
@[simp] theorem State.fetchInstr_nmil (s : State) (got : List Byte) (n : Nat) :
    (s.fetchInstr got n).2.2.nmil = s.nmil := by
  induction n generalizing s got with
  | zero => rfl
  | succ n ih => unfold State.fetchInstr; dsimp only; split <;> simp [ih]
@[simp] theorem State.fetchInstr_mem (s : State) (got : List Byte) (n : Nat) :
    (s.fetchInstr got n).2.2.mem = s.mem := by
  induction n generalizing s got with
  | zero => rfl
  | succ n ih => unfold State.fetchInstr; dsimp only; split <;> simp [ih]
@[simp] theorem State.fetchInstr_io (s : State) (got : List Byte) (n : Nat) :
    (s.fetchInstr got n).2.2.io = s.io := by
  induction n generalizing s got with
  | zero => rfl
  | succ n ih => unfold State.fetchInstr; dsimp only; split <;> simp [ih]
@[simp] theorem State.fetchInstr_params (s : State) (got : List Byte) (n : Nat) :
    (s.fetchInstr got n).2.2.params = s.params := by
  induction n generalizing s got with
  | zero => rfl
  | succ n ih => unfold State.fetchInstr; dsimp only; split <;> simp [ih]
@[simp] theorem State.fetchInstr_inputs (s : State) (got : List Byte) (n : Nat) :
    (s.fetchInstr got n).2.2.inputs = s.inputs := by
  induction n generalizing s got with
  | zero => rfl
  | succ n ih => unfold State.fetchInstr; dsimp only; split <;> simp [ih]
@[simp] theorem State.fetchInstr_later (s : State) (got : List Byte) (n : Nat) :
    (s.fetchInstr got n).2.2.later = s.later := by
  induction n generalizing s got with
  | zero => rfl
  | succ n ih => unfold State.fetchInstr; dsimp only; split <;> simp [ih]
@[simp] theorem State.fetchInstr_start (s : State) (got : List Byte) (n : Nat) :
    (s.fetchInstr got n).2.2.start = s.start := by
  induction n generalizing s got with
  | zero => rfl
  | succ n ih => unfold State.fetchInstr; dsimp only; split <;> simp [ih]
@[simp] theorem State.fetchInstr_ack (s : State) (got : List Byte) (n : Nat) :
    (s.fetchInstr got n).2.2.ack = s.ack := by
  induction n generalizing s got with
  | zero => rfl
  | succ n ih => unfold State.fetchInstr; dsimp only; split <;> simp [ih]
@[simp] theorem State.fetchInstr_events (s : State) (got : List Byte) (n : Nat) :
    (s.fetchInstr got n).2.2.events = s.events := by
  induction n generalizing s got with
  | zero => rfl
  | succ n ih => unfold State.fetchInstr; dsimp only; split <;> simp [ih]

/-! `State.loadReg` -/

@[simp] theorem State.loadReg_rbs (s : State) (r : Reg) (v : Byte) : (s.loadReg r v).rbs = s.rbs := by simp [State.loadReg]
@[simp] theorem State.loadReg_pc (s : State) (r : Reg) (v : Byte) : (s.loadReg r v).pc = s.pc := by simp [State.loadReg]
@[simp] theorem State.loadReg_sp (s : State) (r : Reg) (v : Byte) : (s.loadReg r v).sp = s.sp := by simp [State.loadReg]
@[simp] theorem State.loadReg_imf (s : State) (r : Reg) (v : Byte) : (s.loadReg r v).imf = s.imf := by simp [State.loadReg]
@[simp] theorem State.loadReg_nmip (s : State) (r : Reg) (v : Byte) : (s.loadReg r v).nmip = s.nmip := by simp [State.loadReg]
@[simp] theorem State.loadReg_nmil (s : State) (r : Reg) (v : Byte) : (s.loadReg r v).nmil = s.nmil := by simp [State.loadReg]
@[simp] theorem State.loadReg_io (s : State) (r : Reg) (v : Byte) : (s.loadReg r v).io = s.io := by simp [State.loadReg]
@[simp] theorem State.loadReg_params (s : State) (r : Reg) (v : Byte) : (s.loadReg r v).params = s.params := by simp [State.loadReg]
@[simp] theorem State.loadReg_inputs (s : State) (r : Reg) (v : Byte) : (s.loadReg r v).inputs = s.inputs := by simp [State.loadReg]
@[simp] theorem State.loadReg_later (s : State) (r : Reg) (v : Byte) : (s.loadReg r v).later = s.later := by simp [State.loadReg]
@[simp] theorem State.loadReg_start (s : State) (r : Reg) (v : Byte) : (s.loadReg r v).start = s.start := by simp [State.loadReg]
@[simp] theorem State.loadReg_draws (s : State) (r : Reg) (v : Byte) : (s.loadReg r v).draws = s.draws := by simp [State.loadReg]
@[simp] theorem State.loadReg_bus (s : State) (r : Reg) (v : Byte) : (s.loadReg r v).bus = s.bus := by simp [State.loadReg]
@[simp] theorem State.loadReg_ack (s : State) (r : Reg) (v : Byte) : (s.loadReg r v).ack = s.ack := by simp [State.loadReg]
@[simp] theorem State.loadReg_events (s : State) (r : Reg) (v : Byte) : (s.loadReg r v).events = s.events := by simp [State.loadReg]

@[simp] theorem State.loadReg_flags (s : State) (r : Reg) (v : Byte) :
    (s.loadReg r v).flags = loadFlags s.flags v := rfl

/-! `State.loadPair` -/

@[simp] theorem State.loadPair_rbs (s : State) (p : Pair) (v : Word) : (s.loadPair p v).rbs = s.rbs := by simp [State.loadPair]
@[simp] theorem State.loadPair_pc (s : State) (p : Pair) (v : Word) : (s.loadPair p v).pc = s.pc := by simp [State.loadPair]
@[simp] theorem State.loadPair_sp (s : State) (p : Pair) (v : Word) : (s.loadPair p v).sp = s.sp := by simp [State.loadPair]
@[simp] theorem State.loadPair_imf (s : State) (p : Pair) (v : Word) : (s.loadPair p v).imf = s.imf := by simp [State.loadPair]
@[simp] theorem State.loadPair_nmip (s : State) (p : Pair) (v : Word) : (s.loadPair p v).nmip = s.nmip := by simp [State.loadPair]
@[simp] theorem State.loadPair_nmil (s : State) (p : Pair) (v : Word) : (s.loadPair p v).nmil = s.nmil := by simp [State.loadPair]
@[simp] theorem State.loadPair_io (s : State) (p : Pair) (v : Word) : (s.loadPair p v).io = s.io := by simp [State.loadPair]
@[simp] theorem State.loadPair_params (s : State) (p : Pair) (v : Word) : (s.loadPair p v).params = s.params := by simp [State.loadPair]
@[simp] theorem State.loadPair_inputs (s : State) (p : Pair) (v : Word) : (s.loadPair p v).inputs = s.inputs := by simp [State.loadPair]
@[simp] theorem State.loadPair_later (s : State) (p : Pair) (v : Word) : (s.loadPair p v).later = s.later := by simp [State.loadPair]
@[simp] theorem State.loadPair_start (s : State) (p : Pair) (v : Word) : (s.loadPair p v).start = s.start := by simp [State.loadPair]
@[simp] theorem State.loadPair_draws (s : State) (p : Pair) (v : Word) : (s.loadPair p v).draws = s.draws := by simp [State.loadPair]
@[simp] theorem State.loadPair_bus (s : State) (p : Pair) (v : Word) : (s.loadPair p v).bus = s.bus := by simp [State.loadPair]
@[simp] theorem State.loadPair_ack (s : State) (p : Pair) (v : Word) : (s.loadPair p v).ack = s.ack := by simp [State.loadPair]
@[simp] theorem State.loadPair_events (s : State) (p : Pair) (v : Word) : (s.loadPair p v).events = s.events := by simp [State.loadPair]

@[simp] theorem State.loadPair_flags (s : State) (p : Pair) (v : Word) :
    (s.loadPair p v).flags = moveFlags s.flags := by simp [State.loadPair]

/-! `State.store` -/

@[simp] theorem State.store_bank (s : State) (a : Word) (v : Byte) : (s.store a v).bank = s.bank := by simp [State.store]
@[simp] theorem State.store_rbs (s : State) (a : Word) (v : Byte) : (s.store a v).rbs = s.rbs := by simp [State.store]
@[simp] theorem State.store_pc (s : State) (a : Word) (v : Byte) : (s.store a v).pc = s.pc := by simp [State.store]
@[simp] theorem State.store_sp (s : State) (a : Word) (v : Byte) : (s.store a v).sp = s.sp := by simp [State.store]
@[simp] theorem State.store_nmip (s : State) (a : Word) (v : Byte) : (s.store a v).nmip = s.nmip := by simp [State.store]
@[simp] theorem State.store_nmil (s : State) (a : Word) (v : Byte) : (s.store a v).nmil = s.nmil := by simp [State.store]
@[simp] theorem State.store_io (s : State) (a : Word) (v : Byte) : (s.store a v).io = s.io := by simp [State.store]
@[simp] theorem State.store_params (s : State) (a : Word) (v : Byte) : (s.store a v).params = s.params := by simp [State.store]
@[simp] theorem State.store_inputs (s : State) (a : Word) (v : Byte) : (s.store a v).inputs = s.inputs := by simp [State.store]
@[simp] theorem State.store_later (s : State) (a : Word) (v : Byte) : (s.store a v).later = s.later := by simp [State.store]
@[simp] theorem State.store_start (s : State) (a : Word) (v : Byte) : (s.store a v).start = s.start := by simp [State.store]
@[simp] theorem State.store_draws (s : State) (a : Word) (v : Byte) : (s.store a v).draws = s.draws := by simp [State.store]
@[simp] theorem State.store_ack (s : State) (a : Word) (v : Byte) : (s.store a v).ack = s.ack := by simp [State.store]
@[simp] theorem State.store_events (s : State) (a : Word) (v : Byte) : (s.store a v).events = s.events := by simp [State.store]

@[simp] theorem State.store_flags (s : State) (a : Word) (v : Byte) :
    (s.store a v).flags = moveFlags s.flags := by simp [State.store]

/-! `State.store16` -/

@[simp] theorem State.store16_bank (s : State) (a : Word) (v : Word) : (s.store16 a v).bank = s.bank := by simp [State.store16]
@[simp] theorem State.store16_rbs (s : State) (a : Word) (v : Word) : (s.store16 a v).rbs = s.rbs := by simp [State.store16]
@[simp] theorem State.store16_pc (s : State) (a : Word) (v : Word) : (s.store16 a v).pc = s.pc := by simp [State.store16]
@[simp] theorem State.store16_sp (s : State) (a : Word) (v : Word) : (s.store16 a v).sp = s.sp := by simp [State.store16]
@[simp] theorem State.store16_nmip (s : State) (a : Word) (v : Word) : (s.store16 a v).nmip = s.nmip := by simp [State.store16]
@[simp] theorem State.store16_nmil (s : State) (a : Word) (v : Word) : (s.store16 a v).nmil = s.nmil := by simp [State.store16]
@[simp] theorem State.store16_io (s : State) (a : Word) (v : Word) : (s.store16 a v).io = s.io := by simp [State.store16]
@[simp] theorem State.store16_params (s : State) (a : Word) (v : Word) : (s.store16 a v).params = s.params := by simp [State.store16]
@[simp] theorem State.store16_inputs (s : State) (a : Word) (v : Word) : (s.store16 a v).inputs = s.inputs := by simp [State.store16]
@[simp] theorem State.store16_later (s : State) (a : Word) (v : Word) : (s.store16 a v).later = s.later := by simp [State.store16]
@[simp] theorem State.store16_start (s : State) (a : Word) (v : Word) : (s.store16 a v).start = s.start := by simp [State.store16]
@[simp] theorem State.store16_draws (s : State) (a : Word) (v : Word) : (s.store16 a v).draws = s.draws := by simp [State.store16]
@[simp] theorem State.store16_ack (s : State) (a : Word) (v : Word) : (s.store16 a v).ack = s.ack := by simp [State.store16]
@[simp] theorem State.store16_events (s : State) (a : Word) (v : Word) : (s.store16 a v).events = s.events := by simp [State.store16]

@[simp] theorem State.store16_flags (s : State) (a : Word) (v : Word) :
    (s.store16 a v).flags = moveFlags s.flags := by simp [State.store16]

/-! `State.putReg` -/

@[simp] theorem State.putReg_rbs (s : State) (r : Reg) (out : Byte × Flags) : (s.putReg r out).rbs = s.rbs := by simp [State.putReg]
@[simp] theorem State.putReg_pc (s : State) (r : Reg) (out : Byte × Flags) : (s.putReg r out).pc = s.pc := by simp [State.putReg]
@[simp] theorem State.putReg_sp (s : State) (r : Reg) (out : Byte × Flags) : (s.putReg r out).sp = s.sp := by simp [State.putReg]
@[simp] theorem State.putReg_imf (s : State) (r : Reg) (out : Byte × Flags) : (s.putReg r out).imf = s.imf := by simp [State.putReg]
@[simp] theorem State.putReg_nmip (s : State) (r : Reg) (out : Byte × Flags) : (s.putReg r out).nmip = s.nmip := by simp [State.putReg]
@[simp] theorem State.putReg_nmil (s : State) (r : Reg) (out : Byte × Flags) : (s.putReg r out).nmil = s.nmil := by simp [State.putReg]
@[simp] theorem State.putReg_io (s : State) (r : Reg) (out : Byte × Flags) : (s.putReg r out).io = s.io := by simp [State.putReg]
@[simp] theorem State.putReg_params (s : State) (r : Reg) (out : Byte × Flags) : (s.putReg r out).params = s.params := by simp [State.putReg]
@[simp] theorem State.putReg_inputs (s : State) (r : Reg) (out : Byte × Flags) : (s.putReg r out).inputs = s.inputs := by simp [State.putReg]
@[simp] theorem State.putReg_later (s : State) (r : Reg) (out : Byte × Flags) : (s.putReg r out).later = s.later := by simp [State.putReg]
@[simp] theorem State.putReg_start (s : State) (r : Reg) (out : Byte × Flags) : (s.putReg r out).start = s.start := by simp [State.putReg]
@[simp] theorem State.putReg_draws (s : State) (r : Reg) (out : Byte × Flags) : (s.putReg r out).draws = s.draws := by simp [State.putReg]
@[simp] theorem State.putReg_bus (s : State) (r : Reg) (out : Byte × Flags) : (s.putReg r out).bus = s.bus := by simp [State.putReg]
@[simp] theorem State.putReg_ack (s : State) (r : Reg) (out : Byte × Flags) : (s.putReg r out).ack = s.ack := by simp [State.putReg]
@[simp] theorem State.putReg_events (s : State) (r : Reg) (out : Byte × Flags) : (s.putReg r out).events = s.events := by simp [State.putReg]

@[simp] theorem State.putReg_flags (s : State) (r : Reg) (out : Byte × Flags) :
    (s.putReg r out).flags = out.2 := rfl

/-! `State.putPair` -/

@[simp] theorem State.putPair_rbs (s : State) (p : Pair) (out : Word × Flags) : (s.putPair p out).rbs = s.rbs := by simp [State.putPair]
@[simp] theorem State.putPair_pc (s : State) (p : Pair) (out : Word × Flags) : (s.putPair p out).pc = s.pc := by simp [State.putPair]
@[simp] theorem State.putPair_sp (s : State) (p : Pair) (out : Word × Flags) : (s.putPair p out).sp = s.sp := by simp [State.putPair]
@[simp] theorem State.putPair_imf (s : State) (p : Pair) (out : Word × Flags) : (s.putPair p out).imf = s.imf := by simp [State.putPair]
@[simp] theorem State.putPair_nmip (s : State) (p : Pair) (out : Word × Flags) : (s.putPair p out).nmip = s.nmip := by simp [State.putPair]
@[simp] theorem State.putPair_nmil (s : State) (p : Pair) (out : Word × Flags) : (s.putPair p out).nmil = s.nmil := by simp [State.putPair]
@[simp] theorem State.putPair_io (s : State) (p : Pair) (out : Word × Flags) : (s.putPair p out).io = s.io := by simp [State.putPair]
@[simp] theorem State.putPair_params (s : State) (p : Pair) (out : Word × Flags) : (s.putPair p out).params = s.params := by simp [State.putPair]
@[simp] theorem State.putPair_inputs (s : State) (p : Pair) (out : Word × Flags) : (s.putPair p out).inputs = s.inputs := by simp [State.putPair]
@[simp] theorem State.putPair_later (s : State) (p : Pair) (out : Word × Flags) : (s.putPair p out).later = s.later := by simp [State.putPair]
@[simp] theorem State.putPair_start (s : State) (p : Pair) (out : Word × Flags) : (s.putPair p out).start = s.start := by simp [State.putPair]
@[simp] theorem State.putPair_draws (s : State) (p : Pair) (out : Word × Flags) : (s.putPair p out).draws = s.draws := by simp [State.putPair]
@[simp] theorem State.putPair_bus (s : State) (p : Pair) (out : Word × Flags) : (s.putPair p out).bus = s.bus := by simp [State.putPair]
@[simp] theorem State.putPair_ack (s : State) (p : Pair) (out : Word × Flags) : (s.putPair p out).ack = s.ack := by simp [State.putPair]
@[simp] theorem State.putPair_events (s : State) (p : Pair) (out : Word × Flags) : (s.putPair p out).events = s.events := by simp [State.putPair]

@[simp] theorem State.putPair_flags (s : State) (p : Pair) (out : Word × Flags) :
    (s.putPair p out).flags = out.2 := rfl

/-! `State.updateReg` -/

@[simp] theorem State.updateReg_rbs (s : State) (r : Reg) (k : Flags → Byte → Byte × Flags) : (s.updateReg r k).rbs = s.rbs := by simp [State.updateReg]
@[simp] theorem State.updateReg_pc (s : State) (r : Reg) (k : Flags → Byte → Byte × Flags) : (s.updateReg r k).pc = s.pc := by simp [State.updateReg]
@[simp] theorem State.updateReg_sp (s : State) (r : Reg) (k : Flags → Byte → Byte × Flags) : (s.updateReg r k).sp = s.sp := by simp [State.updateReg]
@[simp] theorem State.updateReg_imf (s : State) (r : Reg) (k : Flags → Byte → Byte × Flags) : (s.updateReg r k).imf = s.imf := by simp [State.updateReg]
@[simp] theorem State.updateReg_nmip (s : State) (r : Reg) (k : Flags → Byte → Byte × Flags) : (s.updateReg r k).nmip = s.nmip := by simp [State.updateReg]
@[simp] theorem State.updateReg_nmil (s : State) (r : Reg) (k : Flags → Byte → Byte × Flags) : (s.updateReg r k).nmil = s.nmil := by simp [State.updateReg]
@[simp] theorem State.updateReg_io (s : State) (r : Reg) (k : Flags → Byte → Byte × Flags) : (s.updateReg r k).io = s.io := by simp [State.updateReg]
@[simp] theorem State.updateReg_params (s : State) (r : Reg) (k : Flags → Byte → Byte × Flags) : (s.updateReg r k).params = s.params := by simp [State.updateReg]
@[simp] theorem State.updateReg_inputs (s : State) (r : Reg) (k : Flags → Byte → Byte × Flags) : (s.updateReg r k).inputs = s.inputs := by simp [State.updateReg]
@[simp] theorem State.updateReg_later (s : State) (r : Reg) (k : Flags → Byte → Byte × Flags) : (s.updateReg r k).later = s.later := by simp [State.updateReg]
@[simp] theorem State.updateReg_start (s : State) (r : Reg) (k : Flags → Byte → Byte × Flags) : (s.updateReg r k).start = s.start := by simp [State.updateReg]
@[simp] theorem State.updateReg_draws (s : State) (r : Reg) (k : Flags → Byte → Byte × Flags) : (s.updateReg r k).draws = s.draws := by simp [State.updateReg]
@[simp] theorem State.updateReg_bus (s : State) (r : Reg) (k : Flags → Byte → Byte × Flags) : (s.updateReg r k).bus = s.bus := by simp [State.updateReg]
@[simp] theorem State.updateReg_ack (s : State) (r : Reg) (k : Flags → Byte → Byte × Flags) : (s.updateReg r k).ack = s.ack := by simp [State.updateReg]
@[simp] theorem State.updateReg_events (s : State) (r : Reg) (k : Flags → Byte → Byte × Flags) : (s.updateReg r k).events = s.events := by simp [State.updateReg]

/-! `State.updatePair` -/

@[simp] theorem State.updatePair_rbs (s : State) (p : Pair) (k : Flags → Word → Word × Flags) : (s.updatePair p k).rbs = s.rbs := by simp [State.updatePair]
@[simp] theorem State.updatePair_pc (s : State) (p : Pair) (k : Flags → Word → Word × Flags) : (s.updatePair p k).pc = s.pc := by simp [State.updatePair]
@[simp] theorem State.updatePair_sp (s : State) (p : Pair) (k : Flags → Word → Word × Flags) : (s.updatePair p k).sp = s.sp := by simp [State.updatePair]
@[simp] theorem State.updatePair_imf (s : State) (p : Pair) (k : Flags → Word → Word × Flags) : (s.updatePair p k).imf = s.imf := by simp [State.updatePair]
@[simp] theorem State.updatePair_nmip (s : State) (p : Pair) (k : Flags → Word → Word × Flags) : (s.updatePair p k).nmip = s.nmip := by simp [State.updatePair]
@[simp] theorem State.updatePair_nmil (s : State) (p : Pair) (k : Flags → Word → Word × Flags) : (s.updatePair p k).nmil = s.nmil := by simp [State.updatePair]
@[simp] theorem State.updatePair_io (s : State) (p : Pair) (k : Flags → Word → Word × Flags) : (s.updatePair p k).io = s.io := by simp [State.updatePair]
@[simp] theorem State.updatePair_params (s : State) (p : Pair) (k : Flags → Word → Word × Flags) : (s.updatePair p k).params = s.params := by simp [State.updatePair]
@[simp] theorem State.updatePair_inputs (s : State) (p : Pair) (k : Flags → Word → Word × Flags) : (s.updatePair p k).inputs = s.inputs := by simp [State.updatePair]
@[simp] theorem State.updatePair_later (s : State) (p : Pair) (k : Flags → Word → Word × Flags) : (s.updatePair p k).later = s.later := by simp [State.updatePair]
@[simp] theorem State.updatePair_start (s : State) (p : Pair) (k : Flags → Word → Word × Flags) : (s.updatePair p k).start = s.start := by simp [State.updatePair]
@[simp] theorem State.updatePair_draws (s : State) (p : Pair) (k : Flags → Word → Word × Flags) : (s.updatePair p k).draws = s.draws := by simp [State.updatePair]
@[simp] theorem State.updatePair_bus (s : State) (p : Pair) (k : Flags → Word → Word × Flags) : (s.updatePair p k).bus = s.bus := by simp [State.updatePair]
@[simp] theorem State.updatePair_ack (s : State) (p : Pair) (k : Flags → Word → Word × Flags) : (s.updatePair p k).ack = s.ack := by simp [State.updatePair]
@[simp] theorem State.updatePair_events (s : State) (p : Pair) (k : Flags → Word → Word × Flags) : (s.updatePair p k).events = s.events := by simp [State.updatePair]

/-! `State.updateMem` -/

@[simp] theorem State.updateMem_bank (s : State) (a : Word) (k : Flags → Byte → Byte × Flags) : (s.updateMem a k).bank = s.bank := by simp [State.updateMem]
@[simp] theorem State.updateMem_rbs (s : State) (a : Word) (k : Flags → Byte → Byte × Flags) : (s.updateMem a k).rbs = s.rbs := by simp [State.updateMem]
@[simp] theorem State.updateMem_pc (s : State) (a : Word) (k : Flags → Byte → Byte × Flags) : (s.updateMem a k).pc = s.pc := by simp [State.updateMem]
@[simp] theorem State.updateMem_sp (s : State) (a : Word) (k : Flags → Byte → Byte × Flags) : (s.updateMem a k).sp = s.sp := by simp [State.updateMem]
@[simp] theorem State.updateMem_nmip (s : State) (a : Word) (k : Flags → Byte → Byte × Flags) : (s.updateMem a k).nmip = s.nmip := by simp [State.updateMem]
@[simp] theorem State.updateMem_nmil (s : State) (a : Word) (k : Flags → Byte → Byte × Flags) : (s.updateMem a k).nmil = s.nmil := by simp [State.updateMem]
@[simp] theorem State.updateMem_io (s : State) (a : Word) (k : Flags → Byte → Byte × Flags) : (s.updateMem a k).io = s.io := by simp [State.updateMem]
@[simp] theorem State.updateMem_params (s : State) (a : Word) (k : Flags → Byte → Byte × Flags) : (s.updateMem a k).params = s.params := by simp [State.updateMem]
@[simp] theorem State.updateMem_inputs (s : State) (a : Word) (k : Flags → Byte → Byte × Flags) : (s.updateMem a k).inputs = s.inputs := by simp [State.updateMem]
@[simp] theorem State.updateMem_later (s : State) (a : Word) (k : Flags → Byte → Byte × Flags) : (s.updateMem a k).later = s.later := by simp [State.updateMem]
@[simp] theorem State.updateMem_start (s : State) (a : Word) (k : Flags → Byte → Byte × Flags) : (s.updateMem a k).start = s.start := by simp [State.updateMem]
@[simp] theorem State.updateMem_ack (s : State) (a : Word) (k : Flags → Byte → Byte × Flags) : (s.updateMem a k).ack = s.ack := by simp [State.updateMem]
@[simp] theorem State.updateMem_events (s : State) (a : Word) (k : Flags → Byte → Byte × Flags) : (s.updateMem a k).events = s.events := by simp [State.updateMem]

/-! `State.aluReg` -/

@[simp] theorem State.aluReg_rbs (s : State) (op : AluOp) (r : Reg) (b : Byte) : (s.aluReg op r b).rbs = s.rbs := by unfold State.aluReg; dsimp only; split <;> simp
@[simp] theorem State.aluReg_pc (s : State) (op : AluOp) (r : Reg) (b : Byte) : (s.aluReg op r b).pc = s.pc := by unfold State.aluReg; dsimp only; split <;> simp
@[simp] theorem State.aluReg_sp (s : State) (op : AluOp) (r : Reg) (b : Byte) : (s.aluReg op r b).sp = s.sp := by unfold State.aluReg; dsimp only; split <;> simp
@[simp] theorem State.aluReg_imf (s : State) (op : AluOp) (r : Reg) (b : Byte) : (s.aluReg op r b).imf = s.imf := by unfold State.aluReg; dsimp only; split <;> simp
@[simp] theorem State.aluReg_nmip (s : State) (op : AluOp) (r : Reg) (b : Byte) : (s.aluReg op r b).nmip = s.nmip := by unfold State.aluReg; dsimp only; split <;> simp
@[simp] theorem State.aluReg_nmil (s : State) (op : AluOp) (r : Reg) (b : Byte) : (s.aluReg op r b).nmil = s.nmil := by unfold State.aluReg; dsimp only; split <;> simp
@[simp] theorem State.aluReg_io (s : State) (op : AluOp) (r : Reg) (b : Byte) : (s.aluReg op r b).io = s.io := by unfold State.aluReg; dsimp only; split <;> simp
@[simp] theorem State.aluReg_params (s : State) (op : AluOp) (r : Reg) (b : Byte) : (s.aluReg op r b).params = s.params := by unfold State.aluReg; dsimp only; split <;> simp
@[simp] theorem State.aluReg_inputs (s : State) (op : AluOp) (r : Reg) (b : Byte) : (s.aluReg op r b).inputs = s.inputs := by unfold State.aluReg; dsimp only; split <;> simp
@[simp] theorem State.aluReg_later (s : State) (op : AluOp) (r : Reg) (b : Byte) : (s.aluReg op r b).later = s.later := by unfold State.aluReg; dsimp only; split <;> simp
@[simp] theorem State.aluReg_start (s : State) (op : AluOp) (r : Reg) (b : Byte) : (s.aluReg op r b).start = s.start := by unfold State.aluReg; dsimp only; split <;> simp
@[simp] theorem State.aluReg_draws (s : State) (op : AluOp) (r : Reg) (b : Byte) : (s.aluReg op r b).draws = s.draws := by unfold State.aluReg; dsimp only; split <;> simp
@[simp] theorem State.aluReg_bus (s : State) (op : AluOp) (r : Reg) (b : Byte) : (s.aluReg op r b).bus = s.bus := by unfold State.aluReg; dsimp only; split <;> simp
@[simp] theorem State.aluReg_ack (s : State) (op : AluOp) (r : Reg) (b : Byte) : (s.aluReg op r b).ack = s.ack := by unfold State.aluReg; dsimp only; split <;> simp
@[simp] theorem State.aluReg_events (s : State) (op : AluOp) (r : Reg) (b : Byte) : (s.aluReg op r b).events = s.events := by unfold State.aluReg; dsimp only; split <;> simp

/-! `State.aluPair` -/

@[simp] theorem State.aluPair_rbs (s : State) (op : AluOp) (p : Pair) (b : Word) : (s.aluPair op p b).rbs = s.rbs := by unfold State.aluPair; dsimp only; split <;> simp
@[simp] theorem State.aluPair_pc (s : State) (op : AluOp) (p : Pair) (b : Word) : (s.aluPair op p b).pc = s.pc := by unfold State.aluPair; dsimp only; split <;> simp
@[simp] theorem State.aluPair_sp (s : State) (op : AluOp) (p : Pair) (b : Word) : (s.aluPair op p b).sp = s.sp := by unfold State.aluPair; dsimp only; split <;> simp
@[simp] theorem State.aluPair_imf (s : State) (op : AluOp) (p : Pair) (b : Word) : (s.aluPair op p b).imf = s.imf := by unfold State.aluPair; dsimp only; split <;> simp
@[simp] theorem State.aluPair_nmip (s : State) (op : AluOp) (p : Pair) (b : Word) : (s.aluPair op p b).nmip = s.nmip := by unfold State.aluPair; dsimp only; split <;> simp
@[simp] theorem State.aluPair_nmil (s : State) (op : AluOp) (p : Pair) (b : Word) : (s.aluPair op p b).nmil = s.nmil := by unfold State.aluPair; dsimp only; split <;> simp
@[simp] theorem State.aluPair_io (s : State) (op : AluOp) (p : Pair) (b : Word) : (s.aluPair op p b).io = s.io := by unfold State.aluPair; dsimp only; split <;> simp
@[simp] theorem State.aluPair_params (s : State) (op : AluOp) (p : Pair) (b : Word) : (s.aluPair op p b).params = s.params := by unfold State.aluPair; dsimp only; split <;> simp
@[simp] theorem State.aluPair_inputs (s : State) (op : AluOp) (p : Pair) (b : Word) : (s.aluPair op p b).inputs = s.inputs := by unfold State.aluPair; dsimp only; split <;> simp
@[simp] theorem State.aluPair_later (s : State) (op : AluOp) (p : Pair) (b : Word) : (s.aluPair op p b).later = s.later := by unfold State.aluPair; dsimp only; split <;> simp
@[simp] theorem State.aluPair_start (s : State) (op : AluOp) (p : Pair) (b : Word) : (s.aluPair op p b).start = s.start := by unfold State.aluPair; dsimp only; split <;> simp
@[simp] theorem State.aluPair_draws (s : State) (op : AluOp) (p : Pair) (b : Word) : (s.aluPair op p b).draws = s.draws := by unfold State.aluPair; dsimp only; split <;> simp
@[simp] theorem State.aluPair_bus (s : State) (op : AluOp) (p : Pair) (b : Word) : (s.aluPair op p b).bus = s.bus := by unfold State.aluPair; dsimp only; split <;> simp
@[simp] theorem State.aluPair_ack (s : State) (op : AluOp) (p : Pair) (b : Word) : (s.aluPair op p b).ack = s.ack := by unfold State.aluPair; dsimp only; split <;> simp
@[simp] theorem State.aluPair_events (s : State) (op : AluOp) (p : Pair) (b : Word) : (s.aluPair op p b).events = s.events := by unfold State.aluPair; dsimp only; split <;> simp

/-! `State.aluAMem` -/

@[simp] theorem State.aluAMem_rbs (s : State) (op : AluOp) (a : Word) : (s.aluAMem op a).rbs = s.rbs := by simp [State.aluAMem]
@[simp] theorem State.aluAMem_pc (s : State) (op : AluOp) (a : Word) : (s.aluAMem op a).pc = s.pc := by simp [State.aluAMem]
@[simp] theorem State.aluAMem_sp (s : State) (op : AluOp) (a : Word) : (s.aluAMem op a).sp = s.sp := by simp [State.aluAMem]
@[simp] theorem State.aluAMem_imf (s : State) (op : AluOp) (a : Word) : (s.aluAMem op a).imf = s.imf := by simp [State.aluAMem]
@[simp] theorem State.aluAMem_nmip (s : State) (op : AluOp) (a : Word) : (s.aluAMem op a).nmip = s.nmip := by simp [State.aluAMem]
@[simp] theorem State.aluAMem_nmil (s : State) (op : AluOp) (a : Word) : (s.aluAMem op a).nmil = s.nmil := by simp [State.aluAMem]
@[simp] theorem State.aluAMem_io (s : State) (op : AluOp) (a : Word) : (s.aluAMem op a).io = s.io := by simp [State.aluAMem]
@[simp] theorem State.aluAMem_params (s : State) (op : AluOp) (a : Word) : (s.aluAMem op a).params = s.params := by simp [State.aluAMem]
@[simp] theorem State.aluAMem_inputs (s : State) (op : AluOp) (a : Word) : (s.aluAMem op a).inputs = s.inputs := by simp [State.aluAMem]
@[simp] theorem State.aluAMem_later (s : State) (op : AluOp) (a : Word) : (s.aluAMem op a).later = s.later := by simp [State.aluAMem]
@[simp] theorem State.aluAMem_start (s : State) (op : AluOp) (a : Word) : (s.aluAMem op a).start = s.start := by simp [State.aluAMem]
@[simp] theorem State.aluAMem_ack (s : State) (op : AluOp) (a : Word) : (s.aluAMem op a).ack = s.ack := by simp [State.aluAMem]
@[simp] theorem State.aluAMem_events (s : State) (op : AluOp) (a : Word) : (s.aluAMem op a).events = s.events := by simp [State.aluAMem]

/-! `State.aluASrc` -/

@[simp] theorem State.aluASrc_rbs (s : State) (op : AluOp) (m : Mode) : (s.aluASrc op m).rbs = s.rbs := by simp [State.aluASrc]
@[simp] theorem State.aluASrc_pc (s : State) (op : AluOp) (m : Mode) : (s.aluASrc op m).pc = s.pc := by simp [State.aluASrc]
@[simp] theorem State.aluASrc_sp (s : State) (op : AluOp) (m : Mode) : (s.aluASrc op m).sp = s.sp := by simp [State.aluASrc]
@[simp] theorem State.aluASrc_imf (s : State) (op : AluOp) (m : Mode) : (s.aluASrc op m).imf = s.imf := by simp [State.aluASrc]
@[simp] theorem State.aluASrc_nmip (s : State) (op : AluOp) (m : Mode) : (s.aluASrc op m).nmip = s.nmip := by simp [State.aluASrc]
@[simp] theorem State.aluASrc_nmil (s : State) (op : AluOp) (m : Mode) : (s.aluASrc op m).nmil = s.nmil := by simp [State.aluASrc]
@[simp] theorem State.aluASrc_io (s : State) (op : AluOp) (m : Mode) : (s.aluASrc op m).io = s.io := by simp [State.aluASrc]
@[simp] theorem State.aluASrc_params (s : State) (op : AluOp) (m : Mode) : (s.aluASrc op m).params = s.params := by simp [State.aluASrc]
@[simp] theorem State.aluASrc_inputs (s : State) (op : AluOp) (m : Mode) : (s.aluASrc op m).inputs = s.inputs := by simp [State.aluASrc]
@[simp] theorem State.aluASrc_later (s : State) (op : AluOp) (m : Mode) : (s.aluASrc op m).later = s.later := by simp [State.aluASrc]
@[simp] theorem State.aluASrc_start (s : State) (op : AluOp) (m : Mode) : (s.aluASrc op m).start = s.start := by simp [State.aluASrc]
@[simp] theorem State.aluASrc_ack (s : State) (op : AluOp) (m : Mode) : (s.aluASrc op m).ack = s.ack := by simp [State.aluASrc]
@[simp] theorem State.aluASrc_events (s : State) (op : AluOp) (m : Mode) : (s.aluASrc op m).events = s.events := by simp [State.aluASrc]

/-! `State.aluBack` -/

@[simp] theorem State.aluBack_bank (s : State) (op : AluOp) (a : Word) (v b : Byte) : (s.aluBack op a v b).bank = s.bank := by unfold State.aluBack; dsimp only; split <;> simp
@[simp] theorem State.aluBack_rbs (s : State) (op : AluOp) (a : Word) (v b : Byte) : (s.aluBack op a v b).rbs = s.rbs := by unfold State.aluBack; dsimp only; split <;> simp
@[simp] theorem State.aluBack_pc (s : State) (op : AluOp) (a : Word) (v b : Byte) : (s.aluBack op a v b).pc = s.pc := by unfold State.aluBack; dsimp only; split <;> simp
@[simp] theorem State.aluBack_sp (s : State) (op : AluOp) (a : Word) (v b : Byte) : (s.aluBack op a v b).sp = s.sp := by unfold State.aluBack; dsimp only; split <;> simp
@[simp] theorem State.aluBack_nmip (s : State) (op : AluOp) (a : Word) (v b : Byte) : (s.aluBack op a v b).nmip = s.nmip := by unfold State.aluBack; dsimp only; split <;> simp
@[simp] theorem State.aluBack_nmil (s : State) (op : AluOp) (a : Word) (v b : Byte) : (s.aluBack op a v b).nmil = s.nmil := by unfold State.aluBack; dsimp only; split <;> simp
@[simp] theorem State.aluBack_io (s : State) (op : AluOp) (a : Word) (v b : Byte) : (s.aluBack op a v b).io = s.io := by unfold State.aluBack; dsimp only; split <;> simp
@[simp] theorem State.aluBack_params (s : State) (op : AluOp) (a : Word) (v b : Byte) : (s.aluBack op a v b).params = s.params := by unfold State.aluBack; dsimp only; split <;> simp
@[simp] theorem State.aluBack_inputs (s : State) (op : AluOp) (a : Word) (v b : Byte) : (s.aluBack op a v b).inputs = s.inputs := by unfold State.aluBack; dsimp only; split <;> simp
@[simp] theorem State.aluBack_later (s : State) (op : AluOp) (a : Word) (v b : Byte) : (s.aluBack op a v b).later = s.later := by unfold State.aluBack; dsimp only; split <;> simp
@[simp] theorem State.aluBack_start (s : State) (op : AluOp) (a : Word) (v b : Byte) : (s.aluBack op a v b).start = s.start := by unfold State.aluBack; dsimp only; split <;> simp
@[simp] theorem State.aluBack_draws (s : State) (op : AluOp) (a : Word) (v b : Byte) : (s.aluBack op a v b).draws = s.draws := by unfold State.aluBack; dsimp only; split <;> simp
@[simp] theorem State.aluBack_ack (s : State) (op : AluOp) (a : Word) (v b : Byte) : (s.aluBack op a v b).ack = s.ack := by unfold State.aluBack; dsimp only; split <;> simp
@[simp] theorem State.aluBack_events (s : State) (op : AluOp) (a : Word) (v b : Byte) : (s.aluBack op a v b).events = s.events := by unfold State.aluBack; dsimp only; split <;> simp

/-! `State.aluSrcN` -/

@[simp] theorem State.aluSrcN_rbs (s : State) (op : AluOp) (m : Mode) (n : Byte) : (s.aluSrcN op m n).rbs = s.rbs := by simp [State.aluSrcN]
@[simp] theorem State.aluSrcN_pc (s : State) (op : AluOp) (m : Mode) (n : Byte) : (s.aluSrcN op m n).pc = s.pc := by simp [State.aluSrcN]
@[simp] theorem State.aluSrcN_sp (s : State) (op : AluOp) (m : Mode) (n : Byte) : (s.aluSrcN op m n).sp = s.sp := by simp [State.aluSrcN]
@[simp] theorem State.aluSrcN_nmip (s : State) (op : AluOp) (m : Mode) (n : Byte) : (s.aluSrcN op m n).nmip = s.nmip := by simp [State.aluSrcN]
@[simp] theorem State.aluSrcN_nmil (s : State) (op : AluOp) (m : Mode) (n : Byte) : (s.aluSrcN op m n).nmil = s.nmil := by simp [State.aluSrcN]
@[simp] theorem State.aluSrcN_io (s : State) (op : AluOp) (m : Mode) (n : Byte) : (s.aluSrcN op m n).io = s.io := by simp [State.aluSrcN]
@[simp] theorem State.aluSrcN_params (s : State) (op : AluOp) (m : Mode) (n : Byte) : (s.aluSrcN op m n).params = s.params := by simp [State.aluSrcN]
@[simp] theorem State.aluSrcN_inputs (s : State) (op : AluOp) (m : Mode) (n : Byte) : (s.aluSrcN op m n).inputs = s.inputs := by simp [State.aluSrcN]
@[simp] theorem State.aluSrcN_later (s : State) (op : AluOp) (m : Mode) (n : Byte) : (s.aluSrcN op m n).later = s.later := by simp [State.aluSrcN]
@[simp] theorem State.aluSrcN_start (s : State) (op : AluOp) (m : Mode) (n : Byte) : (s.aluSrcN op m n).start = s.start := by simp [State.aluSrcN]
@[simp] theorem State.aluSrcN_ack (s : State) (op : AluOp) (m : Mode) (n : Byte) : (s.aluSrcN op m n).ack = s.ack := by simp [State.aluSrcN]
@[simp] theorem State.aluSrcN_events (s : State) (op : AluOp) (m : Mode) (n : Byte) : (s.aluSrcN op m n).events = s.events := by simp [State.aluSrcN]

/-! `State.aluSrcHl` -/

@[simp] theorem State.aluSrcHl_rbs (s : State) (op : AluOp) (m : Mode) : (s.aluSrcHl op m).rbs = s.rbs := by simp [State.aluSrcHl]
@[simp] theorem State.aluSrcHl_pc (s : State) (op : AluOp) (m : Mode) : (s.aluSrcHl op m).pc = s.pc := by simp [State.aluSrcHl]
@[simp] theorem State.aluSrcHl_sp (s : State) (op : AluOp) (m : Mode) : (s.aluSrcHl op m).sp = s.sp := by simp [State.aluSrcHl]
@[simp] theorem State.aluSrcHl_nmip (s : State) (op : AluOp) (m : Mode) : (s.aluSrcHl op m).nmip = s.nmip := by simp [State.aluSrcHl]
@[simp] theorem State.aluSrcHl_nmil (s : State) (op : AluOp) (m : Mode) : (s.aluSrcHl op m).nmil = s.nmil := by simp [State.aluSrcHl]
@[simp] theorem State.aluSrcHl_io (s : State) (op : AluOp) (m : Mode) : (s.aluSrcHl op m).io = s.io := by simp [State.aluSrcHl]
@[simp] theorem State.aluSrcHl_params (s : State) (op : AluOp) (m : Mode) : (s.aluSrcHl op m).params = s.params := by simp [State.aluSrcHl]
@[simp] theorem State.aluSrcHl_inputs (s : State) (op : AluOp) (m : Mode) : (s.aluSrcHl op m).inputs = s.inputs := by simp [State.aluSrcHl]
@[simp] theorem State.aluSrcHl_later (s : State) (op : AluOp) (m : Mode) : (s.aluSrcHl op m).later = s.later := by simp [State.aluSrcHl]
@[simp] theorem State.aluSrcHl_start (s : State) (op : AluOp) (m : Mode) : (s.aluSrcHl op m).start = s.start := by simp [State.aluSrcHl]
@[simp] theorem State.aluSrcHl_ack (s : State) (op : AluOp) (m : Mode) : (s.aluSrcHl op m).ack = s.ack := by simp [State.aluSrcHl]
@[simp] theorem State.aluSrcHl_events (s : State) (op : AluOp) (m : Mode) : (s.aluSrcHl op m).events = s.events := by simp [State.aluSrcHl]

/-! `State.mulPair` -/

@[simp] theorem State.mulPair_rbs (s : State) (p : Pair) : (s.mulPair p).rbs = s.rbs := by simp [State.mulPair]
@[simp] theorem State.mulPair_pc (s : State) (p : Pair) : (s.mulPair p).pc = s.pc := by simp [State.mulPair]
@[simp] theorem State.mulPair_sp (s : State) (p : Pair) : (s.mulPair p).sp = s.sp := by simp [State.mulPair]
@[simp] theorem State.mulPair_imf (s : State) (p : Pair) : (s.mulPair p).imf = s.imf := by simp [State.mulPair]
@[simp] theorem State.mulPair_nmip (s : State) (p : Pair) : (s.mulPair p).nmip = s.nmip := by simp [State.mulPair]
@[simp] theorem State.mulPair_nmil (s : State) (p : Pair) : (s.mulPair p).nmil = s.nmil := by simp [State.mulPair]
@[simp] theorem State.mulPair_io (s : State) (p : Pair) : (s.mulPair p).io = s.io := by simp [State.mulPair]
@[simp] theorem State.mulPair_params (s : State) (p : Pair) : (s.mulPair p).params = s.params := by simp [State.mulPair]
@[simp] theorem State.mulPair_inputs (s : State) (p : Pair) : (s.mulPair p).inputs = s.inputs := by simp [State.mulPair]
@[simp] theorem State.mulPair_later (s : State) (p : Pair) : (s.mulPair p).later = s.later := by simp [State.mulPair]
@[simp] theorem State.mulPair_start (s : State) (p : Pair) : (s.mulPair p).start = s.start := by simp [State.mulPair]
@[simp] theorem State.mulPair_draws (s : State) (p : Pair) : (s.mulPair p).draws = s.draws := by simp [State.mulPair]
@[simp] theorem State.mulPair_bus (s : State) (p : Pair) : (s.mulPair p).bus = s.bus := by simp [State.mulPair]
@[simp] theorem State.mulPair_ack (s : State) (p : Pair) : (s.mulPair p).ack = s.ack := by simp [State.mulPair]
@[simp] theorem State.mulPair_events (s : State) (p : Pair) : (s.mulPair p).events = s.events := by simp [State.mulPair]

/-! `State.divPair` -/

@[simp] theorem State.divPair_rbs (s : State) (p : Pair) : (s.divPair p).rbs = s.rbs := by unfold State.divPair; dsimp only; split <;> simp
@[simp] theorem State.divPair_pc (s : State) (p : Pair) : (s.divPair p).pc = s.pc := by unfold State.divPair; dsimp only; split <;> simp
@[simp] theorem State.divPair_sp (s : State) (p : Pair) : (s.divPair p).sp = s.sp := by unfold State.divPair; dsimp only; split <;> simp
@[simp] theorem State.divPair_imf (s : State) (p : Pair) : (s.divPair p).imf = s.imf := by unfold State.divPair; dsimp only; split <;> simp
@[simp] theorem State.divPair_nmip (s : State) (p : Pair) : (s.divPair p).nmip = s.nmip := by unfold State.divPair; dsimp only; split <;> simp
@[simp] theorem State.divPair_nmil (s : State) (p : Pair) : (s.divPair p).nmil = s.nmil := by unfold State.divPair; dsimp only; split <;> simp
@[simp] theorem State.divPair_io (s : State) (p : Pair) : (s.divPair p).io = s.io := by unfold State.divPair; dsimp only; split <;> simp
@[simp] theorem State.divPair_params (s : State) (p : Pair) : (s.divPair p).params = s.params := by unfold State.divPair; dsimp only; split <;> simp
@[simp] theorem State.divPair_inputs (s : State) (p : Pair) : (s.divPair p).inputs = s.inputs := by unfold State.divPair; dsimp only; split <;> simp
@[simp] theorem State.divPair_later (s : State) (p : Pair) : (s.divPair p).later = s.later := by unfold State.divPair; dsimp only; split <;> simp
@[simp] theorem State.divPair_start (s : State) (p : Pair) : (s.divPair p).start = s.start := by unfold State.divPair; dsimp only; split <;> simp
@[simp] theorem State.divPair_bus (s : State) (p : Pair) : (s.divPair p).bus = s.bus := by unfold State.divPair; dsimp only; split <;> simp
@[simp] theorem State.divPair_ack (s : State) (p : Pair) : (s.divPair p).ack = s.ack := by unfold State.divPair; dsimp only; split <;> simp
@[simp] theorem State.divPair_events (s : State) (p : Pair) : (s.divPair p).events = s.events := by unfold State.divPair; dsimp only; split <;> simp

/-! `State.digitRotate` -/

@[simp] theorem State.digitRotate_rbs (s : State) (m : Mode) (k : Byte → Byte → Byte × Byte) : (s.digitRotate m k).rbs = s.rbs := by simp [State.digitRotate]
@[simp] theorem State.digitRotate_pc (s : State) (m : Mode) (k : Byte → Byte → Byte × Byte) : (s.digitRotate m k).pc = s.pc := by simp [State.digitRotate]
@[simp] theorem State.digitRotate_sp (s : State) (m : Mode) (k : Byte → Byte → Byte × Byte) : (s.digitRotate m k).sp = s.sp := by simp [State.digitRotate]
@[simp] theorem State.digitRotate_nmip (s : State) (m : Mode) (k : Byte → Byte → Byte × Byte) : (s.digitRotate m k).nmip = s.nmip := by simp [State.digitRotate]
@[simp] theorem State.digitRotate_nmil (s : State) (m : Mode) (k : Byte → Byte → Byte × Byte) : (s.digitRotate m k).nmil = s.nmil := by simp [State.digitRotate]
@[simp] theorem State.digitRotate_io (s : State) (m : Mode) (k : Byte → Byte → Byte × Byte) : (s.digitRotate m k).io = s.io := by simp [State.digitRotate]
@[simp] theorem State.digitRotate_params (s : State) (m : Mode) (k : Byte → Byte → Byte × Byte) : (s.digitRotate m k).params = s.params := by simp [State.digitRotate]
@[simp] theorem State.digitRotate_inputs (s : State) (m : Mode) (k : Byte → Byte → Byte × Byte) : (s.digitRotate m k).inputs = s.inputs := by simp [State.digitRotate]
@[simp] theorem State.digitRotate_later (s : State) (m : Mode) (k : Byte → Byte → Byte × Byte) : (s.digitRotate m k).later = s.later := by simp [State.digitRotate]
@[simp] theorem State.digitRotate_start (s : State) (m : Mode) (k : Byte → Byte → Byte × Byte) : (s.digitRotate m k).start = s.start := by simp [State.digitRotate]
@[simp] theorem State.digitRotate_ack (s : State) (m : Mode) (k : Byte → Byte → Byte × Byte) : (s.digitRotate m k).ack = s.ack := by simp [State.digitRotate]
@[simp] theorem State.digitRotate_events (s : State) (m : Mode) (k : Byte → Byte → Byte × Byte) : (s.digitRotate m k).events = s.events := by simp [State.digitRotate]

/-! `State.changeBit` -/

@[simp] theorem State.changeBit_bank (s : State) (a : Word) (b : BitVec 3) (f : Byte → BitVec 3 → Byte) : (s.changeBit a b f).bank = s.bank := by simp [State.changeBit]
@[simp] theorem State.changeBit_rbs (s : State) (a : Word) (b : BitVec 3) (f : Byte → BitVec 3 → Byte) : (s.changeBit a b f).rbs = s.rbs := by simp [State.changeBit]
@[simp] theorem State.changeBit_pc (s : State) (a : Word) (b : BitVec 3) (f : Byte → BitVec 3 → Byte) : (s.changeBit a b f).pc = s.pc := by simp [State.changeBit]
@[simp] theorem State.changeBit_sp (s : State) (a : Word) (b : BitVec 3) (f : Byte → BitVec 3 → Byte) : (s.changeBit a b f).sp = s.sp := by simp [State.changeBit]
@[simp] theorem State.changeBit_nmip (s : State) (a : Word) (b : BitVec 3) (f : Byte → BitVec 3 → Byte) : (s.changeBit a b f).nmip = s.nmip := by simp [State.changeBit]
@[simp] theorem State.changeBit_nmil (s : State) (a : Word) (b : BitVec 3) (f : Byte → BitVec 3 → Byte) : (s.changeBit a b f).nmil = s.nmil := by simp [State.changeBit]
@[simp] theorem State.changeBit_io (s : State) (a : Word) (b : BitVec 3) (f : Byte → BitVec 3 → Byte) : (s.changeBit a b f).io = s.io := by simp [State.changeBit]
@[simp] theorem State.changeBit_params (s : State) (a : Word) (b : BitVec 3) (f : Byte → BitVec 3 → Byte) : (s.changeBit a b f).params = s.params := by simp [State.changeBit]
@[simp] theorem State.changeBit_inputs (s : State) (a : Word) (b : BitVec 3) (f : Byte → BitVec 3 → Byte) : (s.changeBit a b f).inputs = s.inputs := by simp [State.changeBit]
@[simp] theorem State.changeBit_later (s : State) (a : Word) (b : BitVec 3) (f : Byte → BitVec 3 → Byte) : (s.changeBit a b f).later = s.later := by simp [State.changeBit]
@[simp] theorem State.changeBit_start (s : State) (a : Word) (b : BitVec 3) (f : Byte → BitVec 3 → Byte) : (s.changeBit a b f).start = s.start := by simp [State.changeBit]
@[simp] theorem State.changeBit_ack (s : State) (a : Word) (b : BitVec 3) (f : Byte → BitVec 3 → Byte) : (s.changeBit a b f).ack = s.ack := by simp [State.changeBit]
@[simp] theorem State.changeBit_events (s : State) (a : Word) (b : BitVec 3) (f : Byte → BitVec 3 → Byte) : (s.changeBit a b f).events = s.events := by simp [State.changeBit]

/-! `State.storeBit` -/

@[simp] theorem State.storeBit_bank (s : State) (a : Word) (b : BitVec 3) : (s.storeBit a b).bank = s.bank := by simp [State.storeBit]
@[simp] theorem State.storeBit_rbs (s : State) (a : Word) (b : BitVec 3) : (s.storeBit a b).rbs = s.rbs := by simp [State.storeBit]
@[simp] theorem State.storeBit_pc (s : State) (a : Word) (b : BitVec 3) : (s.storeBit a b).pc = s.pc := by simp [State.storeBit]
@[simp] theorem State.storeBit_sp (s : State) (a : Word) (b : BitVec 3) : (s.storeBit a b).sp = s.sp := by simp [State.storeBit]
@[simp] theorem State.storeBit_nmip (s : State) (a : Word) (b : BitVec 3) : (s.storeBit a b).nmip = s.nmip := by simp [State.storeBit]
@[simp] theorem State.storeBit_nmil (s : State) (a : Word) (b : BitVec 3) : (s.storeBit a b).nmil = s.nmil := by simp [State.storeBit]
@[simp] theorem State.storeBit_io (s : State) (a : Word) (b : BitVec 3) : (s.storeBit a b).io = s.io := by simp [State.storeBit]
@[simp] theorem State.storeBit_params (s : State) (a : Word) (b : BitVec 3) : (s.storeBit a b).params = s.params := by simp [State.storeBit]
@[simp] theorem State.storeBit_inputs (s : State) (a : Word) (b : BitVec 3) : (s.storeBit a b).inputs = s.inputs := by simp [State.storeBit]
@[simp] theorem State.storeBit_later (s : State) (a : Word) (b : BitVec 3) : (s.storeBit a b).later = s.later := by simp [State.storeBit]
@[simp] theorem State.storeBit_start (s : State) (a : Word) (b : BitVec 3) : (s.storeBit a b).start = s.start := by simp [State.storeBit]
@[simp] theorem State.storeBit_ack (s : State) (a : Word) (b : BitVec 3) : (s.storeBit a b).ack = s.ack := by simp [State.storeBit]
@[simp] theorem State.storeBit_events (s : State) (a : Word) (b : BitVec 3) : (s.storeBit a b).events = s.events := by simp [State.storeBit]

/-! `State.testBit` -/

@[simp] theorem State.testBit_bank (s : State) (a : Word) (b : BitVec 3) : (s.testBit a b).bank = s.bank := by simp [State.testBit]
@[simp] theorem State.testBit_rbs (s : State) (a : Word) (b : BitVec 3) : (s.testBit a b).rbs = s.rbs := by simp [State.testBit]
@[simp] theorem State.testBit_pc (s : State) (a : Word) (b : BitVec 3) : (s.testBit a b).pc = s.pc := by simp [State.testBit]
@[simp] theorem State.testBit_sp (s : State) (a : Word) (b : BitVec 3) : (s.testBit a b).sp = s.sp := by simp [State.testBit]
@[simp] theorem State.testBit_imf (s : State) (a : Word) (b : BitVec 3) : (s.testBit a b).imf = s.imf := by simp [State.testBit]
@[simp] theorem State.testBit_nmip (s : State) (a : Word) (b : BitVec 3) : (s.testBit a b).nmip = s.nmip := by simp [State.testBit]
@[simp] theorem State.testBit_nmil (s : State) (a : Word) (b : BitVec 3) : (s.testBit a b).nmil = s.nmil := by simp [State.testBit]
@[simp] theorem State.testBit_mem (s : State) (a : Word) (b : BitVec 3) : (s.testBit a b).mem = s.mem := by simp [State.testBit]
@[simp] theorem State.testBit_io (s : State) (a : Word) (b : BitVec 3) : (s.testBit a b).io = s.io := by simp [State.testBit]
@[simp] theorem State.testBit_params (s : State) (a : Word) (b : BitVec 3) : (s.testBit a b).params = s.params := by simp [State.testBit]
@[simp] theorem State.testBit_inputs (s : State) (a : Word) (b : BitVec 3) : (s.testBit a b).inputs = s.inputs := by simp [State.testBit]
@[simp] theorem State.testBit_later (s : State) (a : Word) (b : BitVec 3) : (s.testBit a b).later = s.later := by simp [State.testBit]
@[simp] theorem State.testBit_start (s : State) (a : Word) (b : BitVec 3) : (s.testBit a b).start = s.start := by simp [State.testBit]
@[simp] theorem State.testBit_ack (s : State) (a : Word) (b : BitVec 3) : (s.testBit a b).ack = s.ack := by simp [State.testBit]
@[simp] theorem State.testBit_events (s : State) (a : Word) (b : BitVec 3) : (s.testBit a b).events = s.events := by simp [State.testBit]

/-! `State.loadBit` -/

@[simp] theorem State.loadBit_bank (s : State) (a : Word) (b : BitVec 3) : (s.loadBit a b).bank = s.bank := by simp [State.loadBit]
@[simp] theorem State.loadBit_rbs (s : State) (a : Word) (b : BitVec 3) : (s.loadBit a b).rbs = s.rbs := by simp [State.loadBit]
@[simp] theorem State.loadBit_pc (s : State) (a : Word) (b : BitVec 3) : (s.loadBit a b).pc = s.pc := by simp [State.loadBit]
@[simp] theorem State.loadBit_sp (s : State) (a : Word) (b : BitVec 3) : (s.loadBit a b).sp = s.sp := by simp [State.loadBit]
@[simp] theorem State.loadBit_imf (s : State) (a : Word) (b : BitVec 3) : (s.loadBit a b).imf = s.imf := by simp [State.loadBit]
@[simp] theorem State.loadBit_nmip (s : State) (a : Word) (b : BitVec 3) : (s.loadBit a b).nmip = s.nmip := by simp [State.loadBit]
@[simp] theorem State.loadBit_nmil (s : State) (a : Word) (b : BitVec 3) : (s.loadBit a b).nmil = s.nmil := by simp [State.loadBit]
@[simp] theorem State.loadBit_mem (s : State) (a : Word) (b : BitVec 3) : (s.loadBit a b).mem = s.mem := by simp [State.loadBit]
@[simp] theorem State.loadBit_io (s : State) (a : Word) (b : BitVec 3) : (s.loadBit a b).io = s.io := by simp [State.loadBit]
@[simp] theorem State.loadBit_params (s : State) (a : Word) (b : BitVec 3) : (s.loadBit a b).params = s.params := by simp [State.loadBit]
@[simp] theorem State.loadBit_inputs (s : State) (a : Word) (b : BitVec 3) : (s.loadBit a b).inputs = s.inputs := by simp [State.loadBit]
@[simp] theorem State.loadBit_later (s : State) (a : Word) (b : BitVec 3) : (s.loadBit a b).later = s.later := by simp [State.loadBit]
@[simp] theorem State.loadBit_start (s : State) (a : Word) (b : BitVec 3) : (s.loadBit a b).start = s.start := by simp [State.loadBit]
@[simp] theorem State.loadBit_ack (s : State) (a : Word) (b : BitVec 3) : (s.loadBit a b).ack = s.ack := by simp [State.loadBit]
@[simp] theorem State.loadBit_events (s : State) (a : Word) (b : BitVec 3) : (s.loadBit a b).events = s.events := by simp [State.loadBit]

/-! `State.xorBit` -/

@[simp] theorem State.xorBit_bank (s : State) (a : Word) (b : BitVec 3) : (s.xorBit a b).bank = s.bank := by simp [State.xorBit]
@[simp] theorem State.xorBit_rbs (s : State) (a : Word) (b : BitVec 3) : (s.xorBit a b).rbs = s.rbs := by simp [State.xorBit]
@[simp] theorem State.xorBit_pc (s : State) (a : Word) (b : BitVec 3) : (s.xorBit a b).pc = s.pc := by simp [State.xorBit]
@[simp] theorem State.xorBit_sp (s : State) (a : Word) (b : BitVec 3) : (s.xorBit a b).sp = s.sp := by simp [State.xorBit]
@[simp] theorem State.xorBit_imf (s : State) (a : Word) (b : BitVec 3) : (s.xorBit a b).imf = s.imf := by simp [State.xorBit]
@[simp] theorem State.xorBit_nmip (s : State) (a : Word) (b : BitVec 3) : (s.xorBit a b).nmip = s.nmip := by simp [State.xorBit]
@[simp] theorem State.xorBit_nmil (s : State) (a : Word) (b : BitVec 3) : (s.xorBit a b).nmil = s.nmil := by simp [State.xorBit]
@[simp] theorem State.xorBit_mem (s : State) (a : Word) (b : BitVec 3) : (s.xorBit a b).mem = s.mem := by simp [State.xorBit]
@[simp] theorem State.xorBit_io (s : State) (a : Word) (b : BitVec 3) : (s.xorBit a b).io = s.io := by simp [State.xorBit]
@[simp] theorem State.xorBit_params (s : State) (a : Word) (b : BitVec 3) : (s.xorBit a b).params = s.params := by simp [State.xorBit]
@[simp] theorem State.xorBit_inputs (s : State) (a : Word) (b : BitVec 3) : (s.xorBit a b).inputs = s.inputs := by simp [State.xorBit]
@[simp] theorem State.xorBit_later (s : State) (a : Word) (b : BitVec 3) : (s.xorBit a b).later = s.later := by simp [State.xorBit]
@[simp] theorem State.xorBit_start (s : State) (a : Word) (b : BitVec 3) : (s.xorBit a b).start = s.start := by simp [State.xorBit]
@[simp] theorem State.xorBit_ack (s : State) (a : Word) (b : BitVec 3) : (s.xorBit a b).ack = s.ack := by simp [State.xorBit]
@[simp] theorem State.xorBit_events (s : State) (a : Word) (b : BitVec 3) : (s.xorBit a b).events = s.events := by simp [State.xorBit]

/-! `State.changeRegBit` -/

@[simp] theorem State.changeRegBit_rbs (s : State) (g : Reg) (b : BitVec 3) (f : Byte → BitVec 3 → Byte) : (s.changeRegBit g b f).rbs = s.rbs := by simp [State.changeRegBit]
@[simp] theorem State.changeRegBit_pc (s : State) (g : Reg) (b : BitVec 3) (f : Byte → BitVec 3 → Byte) : (s.changeRegBit g b f).pc = s.pc := by simp [State.changeRegBit]
@[simp] theorem State.changeRegBit_sp (s : State) (g : Reg) (b : BitVec 3) (f : Byte → BitVec 3 → Byte) : (s.changeRegBit g b f).sp = s.sp := by simp [State.changeRegBit]
@[simp] theorem State.changeRegBit_imf (s : State) (g : Reg) (b : BitVec 3) (f : Byte → BitVec 3 → Byte) : (s.changeRegBit g b f).imf = s.imf := by simp [State.changeRegBit]
@[simp] theorem State.changeRegBit_nmip (s : State) (g : Reg) (b : BitVec 3) (f : Byte → BitVec 3 → Byte) : (s.changeRegBit g b f).nmip = s.nmip := by simp [State.changeRegBit]
@[simp] theorem State.changeRegBit_nmil (s : State) (g : Reg) (b : BitVec 3) (f : Byte → BitVec 3 → Byte) : (s.changeRegBit g b f).nmil = s.nmil := by simp [State.changeRegBit]
@[simp] theorem State.changeRegBit_io (s : State) (g : Reg) (b : BitVec 3) (f : Byte → BitVec 3 → Byte) : (s.changeRegBit g b f).io = s.io := by simp [State.changeRegBit]
@[simp] theorem State.changeRegBit_params (s : State) (g : Reg) (b : BitVec 3) (f : Byte → BitVec 3 → Byte) : (s.changeRegBit g b f).params = s.params := by simp [State.changeRegBit]
@[simp] theorem State.changeRegBit_inputs (s : State) (g : Reg) (b : BitVec 3) (f : Byte → BitVec 3 → Byte) : (s.changeRegBit g b f).inputs = s.inputs := by simp [State.changeRegBit]
@[simp] theorem State.changeRegBit_later (s : State) (g : Reg) (b : BitVec 3) (f : Byte → BitVec 3 → Byte) : (s.changeRegBit g b f).later = s.later := by simp [State.changeRegBit]
@[simp] theorem State.changeRegBit_start (s : State) (g : Reg) (b : BitVec 3) (f : Byte → BitVec 3 → Byte) : (s.changeRegBit g b f).start = s.start := by simp [State.changeRegBit]
@[simp] theorem State.changeRegBit_draws (s : State) (g : Reg) (b : BitVec 3) (f : Byte → BitVec 3 → Byte) : (s.changeRegBit g b f).draws = s.draws := by simp [State.changeRegBit]
@[simp] theorem State.changeRegBit_bus (s : State) (g : Reg) (b : BitVec 3) (f : Byte → BitVec 3 → Byte) : (s.changeRegBit g b f).bus = s.bus := by simp [State.changeRegBit]
@[simp] theorem State.changeRegBit_ack (s : State) (g : Reg) (b : BitVec 3) (f : Byte → BitVec 3 → Byte) : (s.changeRegBit g b f).ack = s.ack := by simp [State.changeRegBit]
@[simp] theorem State.changeRegBit_events (s : State) (g : Reg) (b : BitVec 3) (f : Byte → BitVec 3 → Byte) : (s.changeRegBit g b f).events = s.events := by simp [State.changeRegBit]

/-! `State.call` -/

@[simp] theorem State.call_bank (s : State) (a : Word) : (s.call a).bank = s.bank := by simp [State.call]
@[simp] theorem State.call_rbs (s : State) (a : Word) : (s.call a).rbs = s.rbs := by simp [State.call]
@[simp] theorem State.call_flags (s : State) (a : Word) : (s.call a).flags = s.flags := by simp [State.call]
@[simp] theorem State.call_nmip (s : State) (a : Word) : (s.call a).nmip = s.nmip := by simp [State.call]
@[simp] theorem State.call_nmil (s : State) (a : Word) : (s.call a).nmil = s.nmil := by simp [State.call]
@[simp] theorem State.call_io (s : State) (a : Word) : (s.call a).io = s.io := by simp [State.call]
@[simp] theorem State.call_params (s : State) (a : Word) : (s.call a).params = s.params := by simp [State.call]
@[simp] theorem State.call_inputs (s : State) (a : Word) : (s.call a).inputs = s.inputs := by simp [State.call]
@[simp] theorem State.call_later (s : State) (a : Word) : (s.call a).later = s.later := by simp [State.call]
@[simp] theorem State.call_start (s : State) (a : Word) : (s.call a).start = s.start := by simp [State.call]
@[simp] theorem State.call_draws (s : State) (a : Word) : (s.call a).draws = s.draws := by simp [State.call]
@[simp] theorem State.call_ack (s : State) (a : Word) : (s.call a).ack = s.ack := by simp [State.call]
@[simp] theorem State.call_events (s : State) (a : Word) : (s.call a).events = s.events := by simp [State.call]

@[simp] theorem State.call_pc (s : State) (a : Word) : (s.call a).pc = a := rfl

@[simp] theorem State.call_sp (s : State) (a : Word) : (s.call a).sp = s.sp - 1 - 1 := by simp [State.call]

end Sys2Proof.Machine
end

