-- ==== Sys2Proof/Laws/Memory.lean ====
section
/-! SUPPORT. Memory as a list of cells: a read after a write, and the canonical form that every write keeps. -/

namespace Sys2Proof.Machine

theorem Memory.read_erase (m : Memory) (a b : Nat) :
    (m.erase a).read b = if b = a then Config.unlistedByte else m.read b := by
  induction m with
  | nil => simp [Memory.erase, Memory.read]
  | cons p rest ih =>
    obtain ⟨k, v⟩ := p
    simp only [Memory.erase, Memory.read]
    split
    · next h =>
      subst h
      rw [ih]
      split <;> rfl
    · next h =>
      simp only [Memory.read, ih]
      split
      · next hb => rw [if_neg (by rw [hb]; exact Ne.symm h)]
      · rfl

theorem Memory.not_mem_erase (m : Memory) (a : Nat) : ∀ p ∈ m.erase a, p.1 ≠ a := by
  induction m with
  | nil => simp [Memory.erase]
  | cons p rest ih =>
    obtain ⟨k, v⟩ := p
    simp only [Memory.erase]
    split
    · exact ih
    · simp only [List.mem_cons, forall_eq_or_imp]
      exact ⟨fun h => absurd h.symm ‹_›, ih⟩

theorem Memory.read_insert (m : Memory) (a b : Nat) (v : Byte) (h : ∀ p ∈ m, p.1 ≠ a) :
    (m.insert a v).read b = if b = a then v else m.read b := by
  induction m with
  | nil => simp [Memory.insert, Memory.read]
  | cons p rest ih =>
    obtain ⟨k, w⟩ := p
    simp only [List.mem_cons, forall_eq_or_imp] at h
    simp only [Memory.insert]
    split
    · simp only [Memory.read]
    · simp only [Memory.read, ih h.2]
      split
      · next hk => rw [if_neg (by rw [hk]; exact h.1)]
      · rfl

/-- A write changes what its own address reads, and nothing else. -/
theorem Memory.read_write (m : Memory) (a b : Nat) (v : Byte) :
    (m.write a v).read b = if b = a then v else m.read b := by
  unfold Memory.write
  split
  · next h => rw [Memory.read_erase, h]
  · rw [Memory.read_insert _ _ _ _ (Memory.not_mem_erase m a), Memory.read_erase]
    split <;> rfl

@[simp] theorem Memory.read_write_self (m : Memory) (a : Nat) (v : Byte) : (m.write a v).read a = v := by
  simp [Memory.read_write]

theorem Memory.erase_subset (m : Memory) (a : Nat) : ∀ p ∈ m.erase a, p ∈ m := by
  induction m with
  | nil => simp [Memory.erase]
  | cons p rest ih =>
    obtain ⟨k, v⟩ := p
    simp only [Memory.erase]
    split
    · exact fun q hq => List.mem_cons_of_mem _ (ih q hq)
    · simp only [List.mem_cons, forall_eq_or_imp, true_or, true_and]
      exact fun q hq => Or.inr (ih q hq)

theorem Memory.mem_insert (m : Memory) (a : Nat) (v : Byte) : ∀ p ∈ m.insert a v, p = (a, v) ∨ p ∈ m := by
  induction m with
  | nil => simp [Memory.insert]
  | cons p rest ih =>
    obtain ⟨k, w⟩ := p
    simp only [Memory.insert]
    split
    · simp
    · simp only [List.mem_cons, forall_eq_or_imp, true_or, or_true, true_and]
      intro q hq
      rcases ih q hq with h | h
      · exact Or.inl h
      · exact Or.inr (Or.inr h)

theorem Memory.wf_erase (m : Memory) (a : Nat) (h : m.wf) : (m.erase a).wf := by
  refine ⟨?_, fun p hp => h.2 p (Memory.erase_subset m a p hp)⟩
  have hs := h.1
  clear h
  induction m with
  | nil => simp [Memory.erase]
  | cons p rest ih =>
    obtain ⟨k, v⟩ := p
    rw [List.pairwise_cons] at hs
    simp only [Memory.erase]
    split
    · exact ih hs.2
    · rw [List.pairwise_cons]
      exact ⟨fun q hq => hs.1 q (Memory.erase_subset rest a q hq), ih hs.2⟩

theorem Memory.wf_insert (m : Memory) (a : Nat) (v : Byte) (h : m.wf) (hn : ∀ p ∈ m, p.1 ≠ a) (ha : a < 65536)
    (hv : v ≠ Config.unlistedByte) : (m.insert a v).wf := by
  refine ⟨?_, fun p hp => ?_⟩
  · have hs := h.1
    clear h
    induction m with
    | nil => simp [Memory.insert]
    | cons p rest ih =>
      obtain ⟨k, w⟩ := p
      rw [List.pairwise_cons] at hs
      simp only [List.mem_cons, forall_eq_or_imp] at hn
      simp only [Memory.insert]
      split
      · next hk =>
        rw [List.pairwise_cons, List.pairwise_cons]
        refine ⟨fun q hq => ?_, hs⟩
        rcases List.mem_cons.mp hq with rfl | hq
        · exact hk
        · exact Nat.lt_trans hk (hs.1 q hq)
      · next hk =>
        rw [List.pairwise_cons]
        refine ⟨fun q hq => ?_, ih hn.2 hs.2⟩
        rcases Memory.mem_insert rest a v q hq with rfl | hq
        · exact Nat.lt_of_le_of_ne (Nat.le_of_not_lt hk) hn.1
        · exact hs.1 q hq
  · rcases Memory.mem_insert m a v p hp with rfl | hp
    · exact ⟨ha, hv⟩
    · exact h.2 p hp

/-- Every write keeps the canonical form. -/
theorem Memory.wf_write (m : Memory) (a : Nat) (v : Byte) (h : m.wf) (ha : a < 65536) : (m.write a v).wf := by
  unfold Memory.write
  split
  · exact Memory.wf_erase m a h
  · exact Memory.wf_insert _ a v (Memory.wf_erase m a h) (Memory.not_mem_erase m a) ha ‹_›

theorem State.reset_mem_wf : State.reset.mem.wf := by decide

end Sys2Proof.Machine
end

