-- ==== Sys2Proof/Laws/Registers.lean ====
section
/-! SUPPORT. Registers, pairs and the program status word: what a read answers after a write, in every bank and with
or without `BANK_ALIAS`. -/

namespace Sys2Proof

/-! ## Bytes and words -/

theorem loByte_append (m n : Byte) : loByte (m ++ n) = n := by
  unfold loByte; exact BitVec.setWidth_append_eq_right

theorem hiByte_append (m n : Byte) : hiByte (m ++ n) = m := by
  have hn := n.isLt
  apply BitVec.eq_of_toNat_eq
  simp only [hiByte, BitVec.toNat_setWidth, BitVec.toNat_ushiftRight, BitVec.toNat_append]
  have hm := m.isLt
  rw [Nat.shiftLeft_eq, Nat.shiftRight_eq_div_pow, ← Nat.shiftLeft_eq, ← Nat.shiftLeft_add_eq_or_of_lt hn,
    Nat.shiftLeft_eq]
  omega

@[simp] theorem loByte_joinBytes (lo hi : Byte) : loByte (joinBytes lo hi) = lo := loByte_append hi lo

@[simp] theorem hiByte_joinBytes (lo hi : Byte) : hiByte (joinBytes lo hi) = hi := hiByte_append hi lo

theorem loByte_toNat (v : Word) : (loByte v).toNat = v.toNat % 256 := by simp [loByte]

theorem hiByte_toNat (v : Word) : (hiByte v).toNat = v.toNat / 256 := by
  have := v.isLt
  simp [hiByte, Nat.shiftRight_eq_div_pow]; omega

/-- A word is 256 times its high byte plus its low byte (R10). -/
theorem joinBytes_toNat (lo hi : Byte) : (joinBytes lo hi).toNat = 256 * hi.toNat + lo.toNat := by
  have hlo := lo.isLt
  rw [joinBytes, BitVec.toNat_append, ← Nat.shiftLeft_add_eq_or_of_lt hlo, Nat.shiftLeft_eq]
  omega

@[simp] theorem joinBytes_loByte_hiByte (v : Word) : joinBytes (loByte v) (hiByte v) = v := by
  apply BitVec.eq_of_toNat_eq
  rw [joinBytes_toNat, loByte_toNat, hiByte_toNat]
  omega

theorem loByte_eq_extract (v : Word) : loByte v = v.extractLsb' 0 8 := by
  apply BitVec.eq_of_toNat_eq; simp [loByte]

theorem hiByte_eq_extract (v : Word) : hiByte v = v.extractLsb' 8 8 := by
  apply BitVec.eq_of_toNat_eq; simp [hiByte]

theorem add_one_ne_self (a : Word) : a + 1 ≠ a := by bv_omega

theorem Reg.code_lt (r : Reg) : r.code.toNat < 8 := by cases r <;> decide

theorem Reg.code_injective (r q : Reg) (h : r.code.toNat = q.code.toNat) : r = q := by
  cases r <;> cases q <;> first | rfl | exact absurd h (by decide)

theorem Pair.lo_ne_hi (p : Pair) : p.lo ≠ p.hi := by cases p <;> decide

end Sys2Proof

namespace Sys2Proof.Machine

/-! ## One register of a bank -/

@[simp] theorem Bank.get_set_self (k : Bank) (r : Reg) (v : Byte) : (k.set r v).get r = v := by cases r <;> rfl

theorem Bank.get_set_of_ne (k : Bank) (r q : Reg) (v : Byte) (h : q ≠ r) : (k.set r v).get q = k.get q := by
  cases r <;> cases q <;> first | rfl | exact absurd rfl h

/-- The place of `bank[n][r]` under `BANK_ALIAS`, as a number (R23). -/
theorem bankAddr_toNat (base : Word) (n : BitVec 4) (r : Reg) :
    (bankAddr base n r).toNat = (base.toNat + 8 * n.toNat + r.code.toNat) % 65536 := by
  have hr := r.code_lt
  have hn := n.isLt
  unfold bankAddr
  have h8 : (8 : Word).toNat = 8 := rfl
  simp only [BitVec.toNat_add, BitVec.toNat_mul, BitVec.toNat_setWidth, h8]
  omega

/-- Two registers have two places (R23). -/
theorem bankAddr_injective (base : Word) (n k : BitVec 4) (r q : Reg) (h : bankAddr base n r = bankAddr base k q) :
    n = k ∧ r = q := by
  have h' := congrArg BitVec.toNat h
  rw [bankAddr_toNat, bankAddr_toNat] at h'
  have hr := r.code_lt
  have hq := q.code_lt
  have hn := n.isLt
  have hk := k.isLt
  have hb := base.isLt
  have hnk : n.toNat = k.toNat := by omega
  exact ⟨BitVec.eq_of_toNat_eq hnk, Reg.code_injective r q (by omega)⟩

/-- The place of a register is a byte of the bank storage (R23). -/
theorem bankByte_bankAddr (p : Params) (base : Word) (n : BitVec 4) (r : Reg) (h : p.bankAlias = some base) :
    bankByte p (bankAddr base n r) = true := by
  have hr := r.code_lt
  have hn := n.isLt
  have hb := base.isLt
  simp only [bankByte, h, decide_eq_true_eq, BitVec.toNat_sub, bankAddr_toNat]
  omega

theorem State.bankReg_setBankReg (s : State) (n k : BitVec 4) (r q : Reg) (v : Byte) :
    (s.setBankReg n r v).bankReg k q = if k = n ∧ q = r then v else s.bankReg k q := by
  cases h : s.params.bankAlias with
  | none =>
    simp only [State.setBankReg, State.bankReg, h, Vector.get_eq_getElem, Vector.getElem_set]
    by_cases hk : k = n
    · subst hk
      by_cases hq : q = r
      · subst hq; simp
      · simp [hq, Bank.get_set_of_ne]
    · have : ¬ n.toNat = k.toNat := fun e => hk (BitVec.eq_of_toNat_eq e).symm
      simp [hk, this]
  | some base =>
    simp only [State.setBankReg, State.bankReg, State.peek, h, Memory.read_write]
    by_cases hkq : k = n ∧ q = r
    · obtain ⟨rfl, rfl⟩ := hkq; simp
    · rw [if_neg hkq, if_neg]
      exact fun e => hkq (bankAddr_injective base k n q r (BitVec.eq_of_toNat_eq e))

/-- A register written is the register read, and no other register changes (R22). -/
theorem State.reg_setReg (s : State) (r q : Reg) (v : Byte) :
    (s.setReg r v).reg q = if q = r then v else s.reg q := by
  simp [State.reg, State.setReg, State.bankReg_setBankReg]

@[simp] theorem State.reg_setReg_self (s : State) (r : Reg) (v : Byte) : (s.setReg r v).reg r = v := by
  simp [State.reg_setReg]

theorem State.bankReg_setReg (s : State) (r : Reg) (v : Byte) (n : BitVec 4) (q : Reg) :
    (s.setReg r v).bankReg n q = if n = s.rbs ∧ q = r then v else s.bankReg n q :=
  s.bankReg_setBankReg s.rbs n r q v

/-- A register write reaches one byte of memory under `BANK_ALIAS`, and none without (R23). -/
theorem State.peek_setBankReg (s : State) (n : BitVec 4) (r : Reg) (v : Byte) (a : Word) :
    (s.setBankReg n r v).peek a =
      if s.params.bankAlias.map (bankAddr · n r) = some a then v else s.peek a := by
  cases h : s.params.bankAlias with
  | none => simp [State.setBankReg, State.peek, h]
  | some base =>
    simp only [State.setBankReg, State.peek, h, Memory.read_write, Option.map_some, Option.some.injEq]
    by_cases ha : bankAddr base n r = a
    · subst ha; simp
    · rw [if_neg, if_neg ha]
      exact fun e => ha (BitVec.eq_of_toNat_eq e.symm)

theorem State.peek_setReg (s : State) (r : Reg) (v : Byte) (a : Word) :
    (s.setReg r v).peek a = if s.params.bankAlias.map (bankAddr · s.rbs r) = some a then v else s.peek a :=
  s.peek_setBankReg s.rbs r v a

/-! ## Pairs -/

/-- The halves of a pair after the pair is written (R24). -/
theorem State.reg_setPair (s : State) (p : Pair) (v : Word) (q : Reg) :
    (s.setPair p v).reg q = if q = p.hi then hiByte v else if q = p.lo then loByte v else s.reg q := by
  simp only [State.setPair, State.reg_setReg]

@[simp] theorem State.reg_setPair_lo (s : State) (p : Pair) (v : Word) : (s.setPair p v).reg p.lo = loByte v := by
  simp [State.reg_setPair, p.lo_ne_hi]

@[simp] theorem State.reg_setPair_hi (s : State) (p : Pair) (v : Word) : (s.setPair p v).reg p.hi = hiByte v := by
  simp [State.reg_setPair]

/-- The pair law (R24). -/
@[simp] theorem State.pair_setPair_self (s : State) (p : Pair) (v : Word) : (s.setPair p v).pair p = v := by
  simp [State.pair]

theorem State.bankReg_setPair (s : State) (p : Pair) (v : Word) (n : BitVec 4) (q : Reg) :
    (s.setPair p v).bankReg n q =
      if n = s.rbs ∧ q = p.hi then hiByte v else if n = s.rbs ∧ q = p.lo then loByte v else s.bankReg n q := by
  simp only [State.setPair, State.bankReg_setReg, State.setReg_rbs]

/-! ## The program status word -/

@[simp] theorem State.setPsw_flags (s : State) (v : Byte) : (s.setPsw v).flags =
    { jf := v.getLsbD 7, zf := v.getLsbD 6, cf := v.getLsbD 5, hf := v.getLsbD 4 } := by
  unfold State.setPsw; split <;> rfl

theorem State.setPsw_rbs (s : State) (v : Byte) : (s.setPsw v).rbs =
    match s.params.pswLow with
    | .zero => s.rbs
    | .rbs => v.setWidth 4 := by
  unfold State.setPsw; split <;> simp_all

/-- What the pushed byte restores: the four flags, and the bank selector where it is in the low nibble (R28, R29). -/
theorem State.setPsw_getPsw (s : State) : s.setPsw s.getPsw = s := by
  have hf : ∀ (j z c h : Bool) (l : BitVec 4),
      (BitVec.ofBool j ++ BitVec.ofBool z ++ BitVec.ofBool c ++ BitVec.ofBool h ++ l : BitVec 8).getLsbD 7 = j ∧
      (BitVec.ofBool j ++ BitVec.ofBool z ++ BitVec.ofBool c ++ BitVec.ofBool h ++ l : BitVec 8).getLsbD 6 = z ∧
      (BitVec.ofBool j ++ BitVec.ofBool z ++ BitVec.ofBool c ++ BitVec.ofBool h ++ l : BitVec 8).getLsbD 5 = c ∧
      (BitVec.ofBool j ++ BitVec.ofBool z ++ BitVec.ofBool c ++ BitVec.ofBool h ++ l : BitVec 8).getLsbD 4 = h ∧
      (BitVec.ofBool j ++ BitVec.ofBool z ++ BitVec.ofBool c ++ BitVec.ofBool h ++ l : BitVec 8).setWidth 4 = l := by
    decide
  unfold State.setPsw State.getPsw
  obtain ⟨h7, h6, h5, h4, hl⟩ := hf s.flags.jf s.flags.zf s.flags.cf s.flags.hf
    (match s.params.pswLow with | .zero => 0 | .rbs => s.rbs)
  cases h : s.params.pswLow <;> simp_all

end Sys2Proof.Machine
end

