-- ==== Sys2Proof/Laws/Frame.lean ====
section
/-! SUPPORT. What each shared operation can do, said once as a frame: `SameBut` is composed along the operations of a
meaning. -/

namespace Sys2Proof.Machine

/-! ## Composing frames -/

theorem SameBut.refl (s : State) : SameBut s s [] [] [] := by
  constructor <;> intros <;> first | rfl | simp

theorem SameBut.mono {s t : State} {regs regs' : List Reg} {cells cells' : List Word} {acc : List BusAccess}
    (h : SameBut s t regs cells acc) (hr : regs ⊆ regs') (hc : cells ⊆ cells') : SameBut s t regs' cells' acc :=
  { h with
    bankReg := fun n r hn ha => h.bankReg n r (fun e => hn ⟨e.1, hr e.2⟩) fun b hb hm => ha b hb (hc hm)
    peek := fun a ha hb => h.peek a (fun e => ha (hc e)) fun b hp r hm => hb b hp r (hr hm) }

theorem SameBut.trans {s t u : State} {regs regs' : List Reg} {cells cells' : List Word} {acc acc' : List BusAccess}
    (h : SameBut s t regs cells acc) (k : SameBut t u regs' cells' acc') :
    SameBut s u (regs ++ regs') (cells ++ cells') (acc ++ acc') where
  bankReg n r hn ha := by
    rw [k.bankReg n r, h.bankReg n r]
    · exact fun e => hn ⟨e.1, List.mem_append_left _ e.2⟩
    · exact fun b hb hm => ha b hb (List.mem_append_left _ hm)
    · exact fun e => hn ⟨e.1.trans h.rbs, List.mem_append_right _ e.2⟩
    · exact fun b hb hm => ha b (h.params ▸ hb) (List.mem_append_right _ hm)
  peek a ha hb := by
    rw [k.peek a, h.peek a]
    · exact fun e => ha (List.mem_append_left _ e)
    · exact fun b hp r hm => hb b hp r (List.mem_append_left _ hm)
    · exact fun e => ha (List.mem_append_right _ e)
    · exact fun b hp r hm => h.rbs ▸ hb b (h.params ▸ hp) r (List.mem_append_right _ hm)
  bus := by rw [k.bus, h.bus, List.append_assoc]
  rbs := k.rbs.trans h.rbs
  pc := k.pc.trans h.pc
  sp := k.sp.trans h.sp
  flags := k.flags.trans h.flags
  imf := k.imf.trans h.imf
  nmip := k.nmip.trans h.nmip
  nmil := k.nmil.trans h.nmil
  io := k.io.trans h.io
  params := k.params.trans h.params
  inputs := k.inputs.trans h.inputs
  later := k.later.trans h.later
  start := k.start.trans h.start
  draws := k.draws.trans h.draws
  ack := k.ack.trans h.ack
  events := k.events.trans h.events

/-- The flags may be written on both sides. -/
theorem SameBut.setFlags {s t : State} {regs : List Reg} {cells : List Word} {acc : List BusAccess}
    (h : SameBut s t regs cells acc) (f : Flags) : SameBut { s with flags := f } (t.setFlags f) regs cells acc where
  bankReg := h.bankReg
  peek := h.peek
  bus := h.bus
  rbs := h.rbs
  pc := h.pc
  sp := h.sp
  flags := rfl
  imf := h.imf
  nmip := h.nmip
  nmil := h.nmil
  io := h.io
  params := h.params
  inputs := h.inputs
  later := h.later
  start := h.start
  draws := h.draws
  ack := h.ack
  events := h.events

/-- PC may be written on both sides. -/
theorem SameBut.jump {s t : State} {regs : List Reg} {cells : List Word} {acc : List BusAccess}
    (h : SameBut s t regs cells acc) (a : Word) : SameBut { s with pc := a } (t.jump a) regs cells acc where
  bankReg := h.bankReg
  peek := h.peek
  bus := h.bus
  rbs := h.rbs
  pc := rfl
  sp := h.sp
  flags := h.flags
  imf := h.imf
  nmip := h.nmip
  nmil := h.nmil
  io := h.io
  params := h.params
  inputs := h.inputs
  later := h.later
  start := h.start
  draws := h.draws
  ack := h.ack
  events := h.events

/-- SP may be written on both sides. -/
theorem SameBut.withSp {s t : State} {regs : List Reg} {cells : List Word} {acc : List BusAccess}
    (h : SameBut s t regs cells acc) (a : Word) : SameBut { s with sp := a } { t with sp := a } regs cells acc where
  bankReg := h.bankReg
  peek := h.peek
  bus := h.bus
  rbs := h.rbs
  pc := h.pc
  sp := rfl
  flags := h.flags
  imf := h.imf
  nmip := h.nmip
  nmil := h.nmil
  io := h.io
  params := h.params
  inputs := h.inputs
  later := h.later
  start := h.start
  draws := h.draws
  ack := h.ack
  events := h.events

/-- RBS may be written on both sides, where the frame lists no register. -/
theorem SameBut.withRbs {s t : State} {cells : List Word} {acc : List BusAccess}
    (h : SameBut s t [] cells acc) (n : BitVec 4) : SameBut { s with rbs := n } { t with rbs := n } [] cells acc where
  bankReg m r _ ha := h.bankReg m r (fun e => nomatch e.2) ha
  peek a ha _ := h.peek a ha fun _ _ _ hr => nomatch hr
  bus := h.bus
  rbs := rfl
  pc := h.pc
  sp := h.sp
  flags := h.flags
  imf := h.imf
  nmip := h.nmip
  nmil := h.nmil
  io := h.io
  params := h.params
  inputs := h.inputs
  later := h.later
  start := h.start
  draws := h.draws
  ack := h.ack
  events := h.events

/-- IMF may be written on both sides. -/
theorem SameBut.withImf {s t : State} {regs : List Reg} {cells : List Word} {acc : List BusAccess}
    (h : SameBut s t regs cells acc) (e : Bool) : SameBut { s with imf := e } { t with imf := e } regs cells acc where
  bankReg := h.bankReg
  peek := h.peek
  bus := h.bus
  rbs := h.rbs
  pc := h.pc
  sp := h.sp
  flags := h.flags
  imf := rfl
  nmip := h.nmip
  nmil := h.nmil
  io := h.io
  params := h.params
  inputs := h.inputs
  later := h.later
  start := h.start
  draws := h.draws
  ack := h.ack
  events := h.events

/-- A frame that lists no register keeps every register, where memory is no register. -/
theorem SameBut.reg_eq {s t : State} {regs : List Reg} {cells : List Word} {acc : List BusAccess}
    (h : SameBut s t regs cells acc) (hp : s.params.bankAlias = none) (r : Reg) (hr : r ∉ regs) : t.reg r = s.reg r := by
  unfold State.reg
  rw [h.rbs]
  exact h.bankReg s.rbs r (fun e => hr e.2) fun b hb => by rw [hp] at hb; nomatch hb

/-- A frame keeps the bytes it does not list, where no register is memory. -/
theorem SameBut.peek_eq {s t : State} {regs : List Reg} {cells : List Word} {acc : List BusAccess}
    (h : SameBut s t regs cells acc) (hp : s.params.bankAlias = none) (a : Word) (ha : a ∉ cells) :
    t.peek a = s.peek a :=
  h.peek a ha fun b hb => by rw [hp] at hb; nomatch hb

/-! ## Registers -/

theorem State.sameBut_setReg (s : State) (r : Reg) (v : Byte) : SameBut s (s.setReg r v) [r] [] [] := by
  constructor <;> intros <;> try simp
  · next n q hn ha =>
    rw [State.bankReg_setReg, if_neg]
    simpa using hn
  · next a ha hb =>
    rw [State.peek_setReg, if_neg]
    intro h
    cases hp : s.params.bankAlias with
    | none => rw [hp] at h; cases h
    | some base =>
      rw [hp] at h
      exact hb base hp r (by simp) (Option.some.inj h).symm

theorem State.sameBut_setPair (s : State) (p : Pair) (v : Word) : SameBut s (s.setPair p v) [p.lo, p.hi] [] [] :=
  (s.sameBut_setReg p.lo (loByte v)).trans ((s.setReg p.lo (loByte v)).sameBut_setReg p.hi (hiByte v))

/-- A result written into a register with its flags. -/
theorem State.sameBut_putReg (s : State) (r : Reg) (out : Byte × Flags) :
    SameBut { s with flags := out.2 } (s.putReg r out) [r] [] [] := (s.sameBut_setReg r out.1).setFlags out.2

/-- A result written into a pair with its flags. -/
theorem State.sameBut_putPair (s : State) (p : Pair) (out : Word × Flags) :
    SameBut { s with flags := out.2 } (s.putPair p out) [p.lo, p.hi] [] [] := (s.sameBut_setPair p out.1).setFlags out.2

theorem State.sameBut_loadReg (s : State) (r : Reg) (v : Byte) :
    SameBut { s with flags := loadFlags s.flags v } (s.loadReg r v) [r] [] [] := (s.sameBut_setReg r v).setFlags _

@[simp] theorem State.reg_setFlags (s : State) (f : Flags) (r : Reg) : (s.setFlags f).reg r = s.reg r := rfl
@[simp] theorem State.pair_setFlags (s : State) (f : Flags) (p : Pair) : (s.setFlags f).pair p = s.pair p := rfl
@[simp] theorem State.peek_setFlags (s : State) (f : Flags) (a : Word) : (s.setFlags f).peek a = s.peek a := rfl
@[simp] theorem State.reg_moved (s : State) (r : Reg) : s.moved.reg r = s.reg r := rfl
@[simp] theorem State.pair_moved (s : State) (p : Pair) : s.moved.pair p = s.pair p := rfl
@[simp] theorem State.peek_moved (s : State) (a : Word) : s.moved.peek a = s.peek a := rfl
@[simp] theorem State.peek_jump (s : State) (t a : Word) : (s.jump t).peek a = s.peek a := rfl
@[simp] theorem State.reg_putReg_self (s : State) (r : Reg) (out : Byte × Flags) : (s.putReg r out).reg r = out.1 := by
  simp [State.putReg]
@[simp] theorem State.pair_putPair_self (s : State) (p : Pair) (out : Word × Flags) :
    (s.putPair p out).pair p = out.1 := by simp [State.putPair]
@[simp] theorem State.reg_loadReg_self (s : State) (r : Reg) (v : Byte) : (s.loadReg r v).reg r = v := by
  simp [State.loadReg]

/-! ## Bus accesses where plain memory answers -/

theorem State.memRead_fst (s : State) (a : Word) (h : s.served a = false) : (s.memRead a).1 = s.peek a := by
  simp [State.memRead, h]

theorem State.served_of_io_nil (s : State) (a : Word) (h : s.io = []) : s.served a = false := by simp [State.served, h]

@[simp] theorem State.peek_memRead (s : State) (a b : Word) : (s.memRead a).2.peek b = s.peek b := by
  unfold State.memRead; split <;> rfl
@[simp] theorem State.reg_memRead (s : State) (a : Word) (r : Reg) : (s.memRead a).2.reg r = s.reg r := by
  unfold State.memRead; split <;> rfl
@[simp] theorem State.pair_memRead (s : State) (a : Word) (p : Pair) : (s.memRead a).2.pair p = s.pair p := by
  simp [State.pair]

/-- One read of plain memory (R51, R63). -/
theorem State.sameBut_memRead (s : State) (a : Word) (h : s.served a = false) :
    SameBut s (s.memRead a).2 [] [] [.read a (s.peek a)] := by
  simp only [State.memRead, h]
  exact ⟨fun _ _ _ _ => rfl, fun _ _ _ => rfl, rfl, rfl, rfl, rfl, rfl, rfl, rfl, rfl, rfl, rfl, rfl, rfl, rfl, rfl, rfl,
    rfl⟩

/-- What one write does to the bytes of memory (R51, R63). -/
theorem State.peek_memWrite (s : State) (a b : Word) (v : Byte) :
    (s.memWrite a v).peek b = if b = a ∧ s.served a = false then v else s.peek b := by
  have hm : (s.memWrite a v).mem = if s.served a then s.mem else s.mem.write a.toNat v := by
    simp only [State.memWrite, State.mirrorImf_mem]
    split <;> rfl
  simp only [State.peek, hm]
  by_cases hs : s.served a
  · simp [hs]
  · simp only [hs, Bool.false_eq_true, if_false, Memory.read_write]
    by_cases hb : b = a
    · simp [hb]
    · rw [if_neg (fun e => hb (BitVec.eq_of_toNat_eq e))]
      simp [hb]

/-- One write of plain memory, with no `IMF_ALIAS` (R51, R63, R243). -/
theorem State.sameBut_memWrite (s : State) (a : Word) (v : Byte) (h : s.params.imfAlias = none) :
    SameBut s (s.memWrite a v) [] [a] [.write a v] where
  bankReg n r _ ha := by
    cases hp : s.params.bankAlias with
    | none => simp only [State.bankReg, State.memWrite_params, hp, State.memWrite_bank]
    | some base =>
      simp only [State.bankReg, State.memWrite_params, hp, State.peek_memWrite]
      rw [if_neg]
      exact fun e => ha base hp (by simp [e.1])
  peek b hb _ := by rw [State.peek_memWrite, if_neg]; exact fun e => hb (by simp [e.1])
  bus := by
    simp only [State.memWrite, State.mirrorImf_bus]
    split <;> rfl
  imf := by
    have hp : ∀ u : State, u.params.imfAlias = none → (u.mirrorImf a v).imf = u.imf := by
      intro u hu
      simp only [State.mirrorImf, hu]
    simp only [State.memWrite]
    rw [hp _ (by split <;> exact h)]
    split <;> rfl
  rbs := by simp
  pc := by simp
  sp := by simp
  flags := by simp
  nmip := by simp
  nmil := by simp
  io := by simp
  params := by simp
  inputs := by simp
  later := by simp
  start := by simp
  draws := by simp
  ack := by simp
  events := by simp

theorem State.Plain.served {s : State} (h : s.Plain) (a : Word) : s.served a = false := s.served_of_io_nil a h.2.2

theorem State.Plain.peek_memWrite_self {s : State} (h : s.Plain) (a : Word) (v : Byte) : (s.memWrite a v).peek a = v := by
  simp [State.peek_memWrite, h.served]

theorem State.Plain.memRead {s : State} (h : s.Plain) (a : Word) : (s.memRead a).1 = s.peek a :=
  s.memRead_fst a (h.served a)

/-- A state that shares the parameters and the devices of a plain state is plain. -/
theorem State.Plain.of_eq {s t : State} (h : s.Plain) (hp : t.params = s.params) (hi : t.io = s.io) : t.Plain := by
  unfold State.Plain; rw [hp, hi]; exact h

theorem SameBut.plain {s t : State} {regs : List Reg} {cells : List Word} {acc : List BusAccess}
    (h : SameBut s t regs cells acc) (hp : s.Plain) : t.Plain := hp.of_eq h.params h.io

/-- A word read (R52). -/
theorem State.Plain.memRead16 {s : State} (h : s.Plain) (a : Word) :
    (s.memRead16 a).1 = joinBytes (s.peek a) (s.peek (a + 1)) := by
  simp only [State.memRead16]
  rw [h.memRead, State.memRead_fst _ _ (State.served_of_io_nil _ _ (by simp [h.2.2]))]
  simp

theorem State.Plain.sameBut_memRead16 {s : State} (h : s.Plain) (a : Word) :
    SameBut s (s.memRead16 a).2 [] [] [.read a (s.peek a), .read (a + 1) (s.peek (a + 1))] := by
  have h1 := s.sameBut_memRead a (h.served a)
  have h2 := (s.memRead a).2.sameBut_memRead (a + 1) ((h1.plain h).served _)
  rw [State.peek_memRead] at h2
  exact h1.trans h2

/-- A word written (R52). -/
theorem State.Plain.sameBut_memWrite16 {s : State} (h : s.Plain) (a : Word) (v : Word) :
    SameBut s (s.memWrite16 a v) [] [a, a + 1] [.write a (loByte v), .write (a + 1) (hiByte v)] :=
  (s.sameBut_memWrite a (loByte v) h.2.1).trans (State.sameBut_memWrite _ _ _ (by simp [h.2.1]))

theorem State.Plain.peek_memWrite16 {s : State} (h : s.Plain) (a : Word) (v : Word) :
    (s.memWrite16 a v).peek a = loByte v ∧ (s.memWrite16 a v).peek (a + 1) = hiByte v := by
  have hs : (s.memWrite a (loByte v)).served (a + 1) = false := State.served_of_io_nil _ _ (by simp [h.2.2])
  refine ⟨?_, ?_⟩
  · rw [State.memWrite16, State.peek_memWrite, if_neg fun e => add_one_ne_self a e.1.symm, h.peek_memWrite_self]
  · rw [State.memWrite16, State.peek_memWrite, if_pos ⟨rfl, hs⟩]

/-! ## The stack (R57 to R60) -/

theorem State.Plain.sameBut_push8 {s : State} (h : s.Plain) (v : Byte) :
    SameBut { s with sp := s.sp - 1 } (s.push8 v) [] [s.sp - 1] [.write (s.sp - 1) v] :=
  State.sameBut_memWrite { s with sp := s.sp - 1 } (s.sp - 1) v h.2.1

theorem State.Plain.peek_push8 {s : State} (h : s.Plain) (v : Byte) (b : Word) :
    (s.push8 v).peek b = if b = s.sp - 1 then v else s.peek b := by
  have hs : State.served { s with sp := s.sp - 1 } (s.sp - 1) = false := State.served_of_io_nil _ _ h.2.2
  simp only [State.push8, State.peek_memWrite, hs, and_true]
  rfl

theorem State.Plain.pop8 {s : State} (h : s.Plain) : s.pop8.1 = s.peek s.sp := h.memRead s.sp

theorem State.Plain.sameBut_pop8 {s : State} (h : s.Plain) :
    SameBut { s with sp := s.sp + 1 } s.pop8.2 [] [] [.read s.sp (s.peek s.sp)] :=
  (s.sameBut_memRead s.sp (h.served _)).withSp (s.sp + 1)

theorem State.Plain.peek_push16 {s : State} (h : s.Plain) (v : Word) (b : Word) :
    (s.push16 v).peek b = if b = s.sp - 2 then loByte v else if b = s.sp - 1 then hiByte v else s.peek b := by
  have h1 := (h.sameBut_push8 (hiByte v)).plain (by exact h)
  rw [State.push16, h1.peek_push8, h.peek_push8, State.push8_sp]
  have : s.sp - 1 - 1 = s.sp - 2 := by bv_omega
  rw [this]

theorem State.Plain.sameBut_push16 {s : State} (h : s.Plain) (v : Word) :
    SameBut { s with sp := s.sp - 2 } (s.push16 v) [] [s.sp - 1, s.sp - 2]
      [.write (s.sp - 1) (hiByte v), .write (s.sp - 2) (loByte v)] := by
  have h1 := h.sameBut_push8 (hiByte v)
  have h2 := (h1.plain h).sameBut_push8 (loByte v)
  have e : s.sp - 1 - 1 = s.sp - 2 := by bv_omega
  rw [State.push8_sp, e] at h2
  exact (h1.withSp (s.sp - 2)).trans h2

theorem State.Plain.pop16 {s : State} (h : s.Plain) : s.pop16.1 = joinBytes (s.peek s.sp) (s.peek (s.sp + 1)) := by
  have h1 := h.sameBut_pop8
  rw [State.pop16, h.pop8, (h1.plain h).pop8]
  rw [State.pop8_sp]
  rw [h1.peek_eq h.1 (s.sp + 1) (by simp)]
  rfl

theorem State.Plain.sameBut_pop16 {s : State} (h : s.Plain) :
    SameBut { s with sp := s.sp + 2 } s.pop16.2 [] []
      [.read s.sp (s.peek s.sp), .read (s.sp + 1) (s.peek (s.sp + 1))] := by
  have h1 := h.sameBut_pop8
  have h2 := (h1.plain h).sameBut_pop8
  have e : s.sp + 1 + 1 = s.sp + 2 := by bv_omega
  rw [State.pop8_sp, e, h1.peek_eq h.1 (s.sp + 1) (by simp)] at h2
  exact (h1.withSp (s.sp + 2)).trans h2

/-- All that writing the PSW does (R29). -/
theorem State.setPsw_eq (s : State) (v : Byte) :
    s.setPsw v = { s with flags := flagsOfPsw v, rbs := s.bankAfterPsw v } := by
  unfold State.setPsw State.bankAfterPsw flagsOfPsw
  dsimp only
  split <;> simp_all

/-- The PSW may be written on both sides, where the frame lists no register. -/
theorem SameBut.setPsw {s t : State} {cells : List Word} {acc : List BusAccess} (h : SameBut s t [] cells acc)
    (v : Byte) : SameBut { s with flags := flagsOfPsw v, rbs := s.bankAfterPsw v } (t.setPsw v) [] cells acc := by
  have e : t.bankAfterPsw v = s.bankAfterPsw v := by
    unfold State.bankAfterPsw; rw [h.params, h.rbs]
  rw [State.setPsw_eq, e]
  exact (h.setFlags (flagsOfPsw v)).withRbs (s.bankAfterPsw v)

/-! ## Addressing modes -/

/-- The side effect of a mode reaches HL and nothing else (R78 to R84). -/
theorem State.sameBut_resolve (s : State) (m : Mode) : SameBut s (s.resolve m).2 [.l, .h] [] [] := by
  cases m <;> first
    | exact (SameBut.refl s).mono (by simp) (by simp)
    | exact s.sameBut_setPair .hl _

theorem State.Plain.resolve {s : State} (h : s.Plain) (m : Mode) : (s.resolve m).2.Plain :=
  (s.sameBut_resolve m).plain h

theorem State.Plain.peek_resolve {s : State} (h : s.Plain) (m : Mode) (a : Word) : (s.resolve m).2.peek a = s.peek a :=
  (s.sameBut_resolve m).peek_eq h.1 a (by simp)

end Sys2Proof.Machine
end

