-- ==== Sys2Proof/Laws/Engine.lean ====
section
/-! SUPPORT. What the operations of the engine do: the vectors, the interrupt entry and return, the boundary, the
choice of a line, the fetch. -/

namespace Sys2Proof.Machine

/-- What loading PC through a vector does (R239). -/
theorem State.Plain.loadVector_frame {s : State} (h : s.Plain)
  (v : Word) : SameBut { s with pc := vectorTarget s v } (s.loadVector v) [] [] (vectorReads s v) := by
  unfold State.loadVector vectorTarget vectorReads
  cases s.params.vectorMode with
  | indirect =>
    dsimp only
    have := (h.sameBut_memRead16 v).jump (joinBytes (s.peek v) (s.peek (v+1)))
    rw [h.memRead16]; exact this
  | direct => exact (SameBut.refl s).jump v

/-- The target of a vector depends on memory and the parameters alone. -/
theorem vector_congr {s t : State} (hp : t.params = s.params) (v : Word) (h1 : ∀ a,
  t.peek a = s.peek a) : vectorTarget t v = vectorTarget s v ∧ vectorReads t v = vectorReads s v := by
  unfold vectorTarget vectorReads
  rw [hp, h1, h1]
  exact ⟨rfl, rfl⟩

/-- What the entry sequence does (R239). -/
theorem State.Plain.enter_frame {s : State} (h : s.Plain) (v : Word) : Enters s (s.enter v) v := by
  have h1 := h.sameBut_push16 s.pc
  have hp1 := h1.plain h
  have h2 := hp1.sameBut_push8 (s.push16 s.pc).getPsw
  have e : (s.push16 s.pc).sp - 1 = s.sp - 3 := by simp; bv_omega
  have e2 : (s.push16 s.pc).getPsw = s.getPsw := by
    unfold State.getPsw; simp
  rw [e, e2] at h2
  have h3 := ((h1.withSp (s.sp - 3)).trans h2)
  have h4 := (h3.setFlags { s.flags with jf := false }).withImf false
  have hp4 := h4.plain h
  have h5 := State.Plain.loadVector_frame hp4 v
  have en : s.enter v = ({ ((s.push16 s.pc).push8 s.getPsw).setFlags { s.flags with jf := false } with imf :=
    false} : State).loadVector v := by
    simp only [State.enter]
    rw [e2]
    have : ((s.push16 s.pc).push8 s.getPsw).flags = s.flags := by simp
    rw [this]; rfl
  have pk : ∀ a, (s.enter v).peek a = ((s.push16 s.pc).push8 s.getPsw).peek a := by
    intro a; rw [en]; exact h5.peek_eq (by simp [h.1]) a (by simp)
  have pk2 : ∀ a, (s.enter v).peek a = if a = s.sp - 3 then s.getPsw else if a = s.sp - 2 then loByte s.pc else if
    a = s.sp - 1 then hiByte s.pc else s.peek a := by
    intro a; rw [pk, hp1.peek_push8, e, h.peek_push16]
  refine ⟨?_, ?_, ?_, ?_⟩
  · rw [pk2, if_neg (by bv_omega), if_neg (by bv_omega), if_pos rfl]
  · rw [pk2, if_neg (by bv_omega), if_pos rfl]
  · rw [pk2, if_pos rfl]
  · have vt := vector_congr (s := ({ ((s.push16 s.pc).push8 s.getPsw).setFlags { s.flags with jf := false } with
      imf := false} : State)) (t := s.enter v) (by simp) v pk
    rw [vt.1, vt.2]
    rw [en]
    have h6 := (h4.jump (vectorTarget ({ ((s.push16 s.pc).push8 s.getPsw).setFlags { s.flags with jf := false }
      with imf := false} : State) v)).trans h5
    exact h6

/-- What the return from the frame does (R230, R231). -/
theorem State.Plain.leave_frame {s : State} (h : s.Plain) : SameBut { s with
      pc := s.peek (s.sp + 2) ++ s.peek (s.sp + 1)
      sp := s.sp + 3
      flags := flagsOfPsw (s.peek s.sp)
      rbs := s.bankAfterPsw (s.peek s.sp) } s.leave [] [] [.read s.sp (s.peek s.sp),
        .read (s.sp + 1) (s.peek (s.sp + 1)), .read (s.sp + 2) (s.peek (s.sp + 2))] := by
  have h1 := h.sameBut_pop8.setPsw (s.peek s.sp)
  have hp := h1.plain h
  have h2 := hp.sameBut_pop16
  have e : s.sp + 1 + 1 = s.sp + 2 := by bv_omega
  have e3 : s.sp + 1 + 2 = s.sp + 3 := by bv_omega
  have v := hp.pop16
  have pk : ∀ a, (s.pop8.2.setPsw (s.peek s.sp)).peek a = s.peek a := fun a => h1.peek_eq h.1 a (by simp)
  simp only [State.setPsw_sp, State.pop8_sp, pk, e, e3] at h2 v
  have h3 := ((h1.withSp (s.sp + 3)).trans h2).jump (s.peek (s.sp + 2) ++ s.peek (s.sp + 1))
  have : s.leave = (s.pop8.2.setPsw (s.peek s.sp)).pop16.2.jump (s.peek (s.sp + 2) ++ s.peek (s.sp + 1)) := by
    simp only [State.leave]
    rw [h.pop8, v]; rfl
  rw [this]
  exact h3

/-- A boundary keeps the parameters. -/
theorem State.boundary_params (s : State) : s.boundary.params = s.params := by
  have a : ∀ u : State, u.applyReset.params = u.params := by
    intro u; unfold State.applyReset; split
    · simp [State.resetSequence]
    · rfl
  have b : ∀ u : State, u.applyImfWrite.params = u.params := by
    intro u; unfold State.applyImfWrite; split <;> rfl
  have c : ∀ u : State, u.advanceInputs.params = u.params := by
    intro u; unfold State.advanceInputs; split <;> rfl
  simp [State.boundary, a, b, c]

/-- A boundary keeps the device addresses. -/
theorem State.boundary_io (s : State) : s.boundary.io = s.io := by
  have a : ∀ u : State, u.applyReset.io = u.io := by
    intro u; unfold State.applyReset; split
    · simp [State.resetSequence]
    · rfl
  have b : ∀ u : State, u.applyImfWrite.io = u.io := by
    intro u; unfold State.applyImfWrite; split <;> rfl
  have c : ∀ u : State, u.advanceInputs.io = u.io := by
    intro u; unfold State.advanceInputs; split <;> rfl
  simp [State.boundary, a, b, c]

/-- No line asserted, none chosen (R238). -/
theorem lowestIrq_none (l : List Bool) (v : List Word) (k : Nat) (h : ∀ j,
  j < v.length → l.getD j false = false) : lowestIrq l v k = none := by
  induction l generalizing v k with
  | nil => cases v <;> rfl
  | cons b l ih =>
    cases v with
    | nil => cases b <;> rfl
    | cons w v =>
      have h0 := h 0 (by simp)
      simp at h0
      subst h0
      simp only [lowestIrq]
      exact ih v (k+1) (fun j hj => by have := h (j+1) (by simpa using hj); simpa using this)

/-- The lowest asserted line is chosen (R238). -/
theorem lowestIrq_some (l : List Bool) (v : List Word) (k j : Nat) (hj : j < v.length) (h : l.getD j false = true)
  (hc : ∀ i, i < j → l.getD i false = false) : lowestIrq l v k = some (k + j, v[j]) := by
  induction l generalizing v k j with
  | nil => simp at h
  | cons b l ih =>
    cases v with
    | nil => simp at hj
    | cons w v =>
      cases j with
      | zero => simp at h; subst h; rfl
      | succ j =>
        have h0 := hc 0 (by simp)
        simp at h0
        subst h0
        simp only [lowestIrq]
        rw [ih v (k+1) j (by simpa using hj) (by simpa using h) (fun i hi => by have := hc (i+1) (by omega); simpa using this)]
        simp; omega

/-- The state after the bytes `rem` have been fetched from plain memory: PC is past them, and each was read once. -/
def State.fetched (s : State) (rem : List Byte) : State := { s with
  pc := s.pc + BitVec.ofNat 16 rem.length
  bus := s.bus ++ rem.mapIdx fun k b => .read (s.pc + BitVec.ofNat 16 k) b }

/-- One fetched byte of plain memory (R70). -/
theorem State.fetch8_eq (s : State) (h : s.io = []) : s.fetch8 = (s.peek s.pc, State.fetched s [s.peek s.pc]) := by
  simp [State.fetch8, State.memRead, State.served, h, State.fetched]

/-- Fetching one byte and then the others. -/
theorem State.fetched_cons (s : State) (b : Byte) (rem : List Byte) : State.fetched
  (State.fetched s [b]) rem = State.fetched s (b :: rem) := by
  simp only [State.fetched, List.mapIdx_cons, List.mapIdx_nil, List.length_cons, List.length_nil]
  congr 1
  · simp; bv_omega
  · simp only [List.append_assoc, List.singleton_append]
    congr 2
    · (try simp); congr 1; funext k b; congr 1; bv_omega

/-- What fetching the bytes of one instruction, or of one illegal sequence, does (R70, R71, R92). -/
theorem State.fetchInstr_eq (d : Decoded) (o : Option Instr) (hd : (d = .instr (o.getD .nop) [] ∧
  o.isSome) ∨ (∃ w, d = .illegal w ∧ o = none)) : ∀ (rem got : List Byte) (s : State) (fuel : Nat),
   rem ≠ [] → rem.length ≤ fuel → s.io = [] → (∀ k, 0 < k → k < rem.length → decode (got ++ rem.take k) = .more) →
   decode (got ++ rem) = d → (∀ k, (h : k < rem.length) → s.peek (s.pc + BitVec.ofNat 16 k) = rem[k]) →
   s.fetchInstr got fuel = (got ++ rem, o, State.fetched s rem) := by
  intro rem
  induction rem with
  | nil => intro _ _ _ h; exact absurd rfl h
  | cons b rem ih =>
    intro got s fuel _ hf hio hm hdec hp
    cases fuel with
    | zero => simp at hf
    | succ fuel =>
    have hb : s.peek s.pc = b := by have := hp 0 (by simp); rw [show s.pc + BitVec.ofNat 16 0 = s.pc by simp] at this; exact this
    simp only [State.fetchInstr, State.fetch8_eq s hio, hb]
    cases rem with
    | nil =>
      rw [hdec]
      rcases hd with ⟨rfl, ho⟩ | ⟨w, rfl, rfl⟩
      · cases o with
        | none => simp at ho
        | some i => rfl
      · rfl
    | cons c rem =>
      have := hm 1 (by simp) (by simp)
      rw [show got ++ List.take 1 (b :: c :: rem) = got ++ [b] from rfl] at this
      rw [this]
      dsimp only
      rw [ih (got ++ [b]) (State.fetched s [b]) fuel (by simp) (by simpa using hf) hio
        (fun k hk hk' => by
          have := hm (k+1) (by omega) (by simpa using hk')
          simpa using this)
        (by simpa using hdec)
        (fun k hk => by
          have := hp (k+1) (by simpa using hk)
          simp only [List.getElem_cons_succ] at this
          rw [← this]
          change s.peek _ = s.peek _
          congr 1
          simp [State.fetched]; bv_omega)]
      rw [State.fetched_cons]
      simp

end Sys2Proof.Machine
end

