-- ==== Sys2Proof/Laws/Operations.lean ====
section
/-! SUPPORT. For each shared operation over operands, what it does: its result, and everything else as a frame. -/

namespace Sys2Proof.Machine

/-- What a byte store does (R96). -/
theorem State.Plain.store_frame {u : State} (hu : u.Plain) (a : Word) (v : Byte) :
   (u.store a v).peek a = v ∧ SameBut { u with flags := { u.flags with jf := true } }
     (u.store a v) [] [a] [.write a v] := by
  have := (u.sameBut_memWrite a v hu.2.1).setFlags (moveFlags u.flags)
  refine ⟨by simp [State.store, hu.peek_memWrite_self], ?_⟩
  simp only [State.store, State.moved, State.memWrite_flags]
  exact this

/-- What a load into a pair does (R96). -/
theorem State.loadPair_frame (s : State) (p : Pair) (v : Word) : (s.loadPair p v).pair p = v ∧
  SameBut { s with flags := { s.flags with jf := true } } (s.loadPair p v) [p.lo, p.hi] [] [] := by
  refine ⟨by simp [State.loadPair], ?_⟩
  have := (s.sameBut_setPair p v).setFlags (moveFlags s.flags)
  simp only [State.loadPair, State.moved, State.setPair_flags]
  exact this

/-- What a word store does (R52, R96). -/
theorem State.Plain.store16_frame {u : State} (hu : u.Plain) (a : Word) (v : Word) :
   (u.store16 a v).peek a = loByte v ∧ (u.store16 a v).peek (a+1) = hiByte v ∧
     SameBut { u with flags := { u.flags with jf := true } } (u.store16 a v) [] [a, a+1] [.write a (loByte v),
     .write (a+1) (hiByte v)] := by
  have := (hu.sameBut_memWrite16 a v).setFlags (moveFlags u.flags)
  have hp := hu.peek_memWrite16 a v
  refine ⟨by simp [State.store16, hp.1], hp.2, ?_⟩
  simp only [State.store16, State.moved, State.memWrite16_flags]
  exact this

/-- What an update of a register does. -/
theorem State.updateReg_frame (s : State) (r : Reg) (k : Flags → Byte → Byte × Flags) :
   (s.updateReg r k).reg r = (k s.flags (s.reg r)).1 ∧
     SameBut { s with flags := (k s.flags (s.reg r)).2 } (s.updateReg r k) [r] [] [] :=
  ⟨by simp [State.updateReg], s.sameBut_putReg _ _⟩

/-- What an update of a pair does. -/
theorem State.updatePair_frame (s : State) (r : Pair) (k : Flags → Word → Word × Flags) :
   (s.updatePair r k).pair r = (k s.flags (s.pair r)).1 ∧
     SameBut { s with flags := (k s.flags (s.pair r)).2 } (s.updatePair r k) [r.lo, r.hi] [] [] :=
  ⟨by simp [State.updatePair], s.sameBut_putPair _ _⟩

/-- What a read-modify-write does (R56). -/
theorem State.Plain.updateMem_frame {u : State} (hu : u.Plain) (a : Word) (k : Flags → Byte → Byte × Flags) :
   (u.updateMem a k).peek a = (k u.flags (u.peek a)).1 ∧
     SameBut { u with flags := (k u.flags (u.peek a)).2 } (u.updateMem a k) [] [a] [.read a (u.peek a),
     .write a ((u.updateMem a k).peek a)] := by
  have h1 := u.sameBut_memRead a (hu.served a)
  have e : (u.updateMem a k).peek a = (k u.flags (u.peek a)).1 := by
    simp only [State.updateMem]; rw [State.peek_setFlags, hu.memRead, (h1.plain hu).peek_memWrite_self]; simp
  refine ⟨e, ?_⟩
  rw [e]
  simp only [State.updateMem]
  rw [hu.memRead, State.memRead_flags]
  exact (h1.trans (State.sameBut_memWrite _ a _ (h1.plain hu).2.1)).setFlags _

/-- What an ALU operation on a register does. -/
theorem State.aluReg_frame (s : State) (op : AluOp) (r : Reg) (b : Byte) :
    (s.aluReg op r b).reg r = (if op = .cmp then s.reg r else (alu8 op s.flags (s.reg r) b).1) ∧
      SameBut { s with flags := (alu8 op s.flags (s.reg r) b).2 } (s.aluReg op r b) [r] [] [] := by
  by_cases h : op = .cmp
  · simp only [State.aluReg, h, if_true]; exact ⟨rfl, ((SameBut.refl s).setFlags _).mono (by simp) (by simp)⟩
  · simp only [State.aluReg, h, if_false]; exact ⟨by simp, s.sameBut_putReg _ _⟩

/-- What an ALU operation on a pair does. -/
theorem State.aluPair_frame (s : State) (op : AluOp) (r : Pair) (b : Word) :
    (s.aluPair op r b).pair r = (if op = .cmp then s.pair r else (alu16 op s.flags (s.pair r) b).1) ∧
      SameBut { s with flags := (alu16 op s.flags (s.pair r) b).2 } (s.aluPair op r b) [r.lo, r.hi] [] [] := by
  by_cases h : op = .cmp
  · simp only [State.aluPair, h, if_true]; exact ⟨rfl, ((SameBut.refl s).setFlags _).mono (by simp) (by simp)⟩
  · simp only [State.aluPair, h, if_false]; exact ⟨by simp, s.sameBut_putPair _ _⟩

/-- What an ALU operation on A and a byte of memory does. -/
theorem State.Plain.aluAMem_frame {u : State} (hu : u.Plain) (op : AluOp) (a : Word) :
   (u.aluAMem op a).reg .a = (if op = .cmp then u.reg .a else (alu8 op u.flags (u.reg .a) (u.peek a)).1) ∧
      SameBut { u with flags := (alu8 op u.flags (u.reg .a) (u.peek a)).2 } (u.aluAMem op a) [.a] [] [.read a
        (u.peek a)] := by
  have h1 := u.sameBut_memRead a (hu.served a)
  have h2 := State.aluReg_frame (u.memRead a).2 op .a (u.peek a)
  simp only [State.aluAMem]
  rw [hu.memRead]
  simp only [State.reg_memRead, State.memRead_flags] at h2
  exact ⟨h2.1, (h1.setFlags _).trans h2.2⟩

/-- What an ALU operation written back to memory does. -/
theorem State.Plain.aluBack_frame {u : State} (hu : u.Plain) (op : AluOp) (a : Word) (v b : Byte)
  (hv : u.peek a = v) :
   (u.aluBack op a v b).peek a = (if op = .cmp then v else (alu8 op u.flags v b).1) ∧
     SameBut { u with flags := (alu8 op u.flags v b).2 } (u.aluBack op a v b) [] [a]
       (if op = .cmp then [] else [.write a (alu8 op u.flags v b).1]) := by
  by_cases h : op = .cmp
  · simp only [State.aluBack, h, if_true]; exact ⟨hv, ((SameBut.refl u).setFlags _).mono (by simp) (by simp)⟩
  · simp only [State.aluBack, h, if_false]; exact ⟨by simp [hu.peek_memWrite_self],
      (u.sameBut_memWrite a _ hu.2.1).setFlags _⟩

/-- What ALU (src),n does (R147). -/
theorem State.Plain.aluSrcN_frame {s : State} (h : s.Plain) (op : AluOp) (m : Mode) (n : Byte) :
   (s.aluSrcN op m n).peek (s.resolve m).1 = (if op = .cmp then s.peek (s.resolve m).1 else (alu8 op s.flags
     (s.peek (s.resolve m).1) n).1) ∧
   SameBut { (s.resolve m).2 with flags := (alu8 op s.flags (s.peek (s.resolve m).1) n).2 }
     (s.aluSrcN op m n) [] [(s.resolve m).1]
    (if op = .cmp then [.read (s.resolve m).1 (s.peek (s.resolve m).1)] else [.read (s.resolve m).1 (s.peek
      (s.resolve m).1), .write (s.resolve m).1 (alu8 op s.flags (s.peek (s.resolve m).1) n).1]) := by
  have hu := h.resolve m
  have h1 := (s.resolve m).2.sameBut_memRead (s.resolve m).1 (hu.served _)
  have h2 := State.Plain.aluBack_frame (h1.plain hu) op (s.resolve m).1 (s.peek (s.resolve m).1) n
    (by simp [h.peek_resolve])
  simp only [State.aluSrcN]
  rw [hu.memRead, h.peek_resolve] at *
  simp only [State.memRead_flags, State.resolve_flags] at h2
  refine ⟨h2.1, ?_⟩
  have := (h1.setFlags (alu8 op s.flags (s.peek (s.resolve m).1) n).2).trans h2.2
  by_cases hc : op = .cmp
  · subst hc; exact this
  · simp only [hc, if_false] at this ⊢; exact this

/-- What a multiplication does (R163). -/
theorem State.mulPair_frame (s : State) (p : Pair) :
    ((s.mulPair p).pair p).toNat = (s.reg p.hi).toNat * (s.reg p.lo).toNat ∧
    SameBut { s with
      flags := { s.flags with
        zf := decide ((s.mulPair p).reg p.hi = 0)
        jf := decide ((s.mulPair p).reg p.hi = 0) } } (s.mulPair p) [p.lo, p.hi] [] [] := by
  have e : (s.mulPair p).reg p.hi = hiByte (mulFlags s.flags (s.reg p.hi) (s.reg p.lo)).1 := by
    simp [State.mulPair, State.putPair]
  rw [e]
  refine ⟨?_, s.sameBut_putPair p (mulFlags s.flags (s.reg p.hi) (s.reg p.lo))⟩
  simp only [State.mulPair, State.pair_putPair_self, mulFlags, zext16, BitVec.toNat_mul, BitVec.toNat_setWidth]
  have := (s.reg p.hi).isLt; have := (s.reg p.lo).isLt
  rw [Nat.mod_eq_of_lt (a := (s.reg p.hi).toNat) (by omega), Nat.mod_eq_of_lt (a := (s.reg p.lo).toNat) (by omega),
    Nat.mod_eq_of_lt]
  calc _ < 256 * 256 := Nat.mul_lt_mul'' (by omega) (by omega)
    _ = _ := by norm_num

/-- What a division does (R165). -/
theorem State.divPair_frame (s : State) (gg : Pair) :
        ((s.reg .c).toNat ≠ 0 → (s.pair gg).toNat / (s.reg .c).toNat ≤ 0xFF →
          ((s.divPair gg).reg gg.lo).toNat = (s.pair gg).toNat / (s.reg .c).toNat ∧
            ((s.divPair gg).reg gg.hi).toNat = (s.pair gg).toNat % (s.reg .c).toNat ∧
          SameBut { s with
            flags := { s.flags with
              cf := false
              jf := false
              zf := decide ((s.pair gg).toNat / (s.reg .c).toNat = 0) } } (s.divPair gg)
            [gg.lo, gg.hi] [] []) ∧
        ((s.reg .c).toNat = 0 ∨ 0xFF < (s.pair gg).toNat / (s.reg .c).toNat →
          SameBut { s with
            flags := { s.flags with cf := true, jf := true, zf := (s.divPair gg).flags.zf }
            draws := (s.divPair gg).draws } (s.divPair gg)
            [gg.lo, gg.hi] [] []) := by
  constructor
  · intro hc hq
    have hd : divOverflows (s.pair gg) (s.reg .c) = false := by
      simp only [divOverflows, Bool.or_eq_false_iff, decide_eq_false_iff_not]
      exact ⟨fun e => hc (by rw [e]; rfl), by omega⟩
    have hm : (s.pair gg).toNat % (s.reg .c).toNat < 256 :=
      lt_of_lt_of_le (Nat.mod_lt _ (by omega)) (by have := (s.reg .c).isLt; omega)
    simp only [State.divPair, hd]
    refine ⟨?_, ?_, ?_⟩
    · simp [State.reg_setReg, gg.lo_ne_hi, quotient]; omega
    · simp [remainder]; omega
    · have e : decide ((s.pair gg).toNat / (s.reg .c).toNat = 0) = isZero (quotient (s.pair gg) (s.reg .c)) := by
        simp only [isZero, quotient]; rw [Bool.eq_iff_iff]; simp only [decide_eq_true_eq, ← BitVec.toNat_inj,
          BitVec.toNat_ofNat];
        have z : BitVec.toNat (0 : Byte) = 0 := rfl
        rw [z]; generalize (s.pair gg).toNat / (s.reg .c).toNat = q at *; omega
      rw [e]
      exact ((s.sameBut_setReg gg.lo _).trans (State.sameBut_setReg _ gg.hi _)).setFlags _
  · intro h
    have hd : divOverflows (s.pair gg) (s.reg .c) = true := by
      simp only [divOverflows, Bool.or_eq_true, decide_eq_true_eq]
      rcases h with h | h
      · left; exact BitVec.eq_of_toNat_eq h
      · right; exact h
    have key : ∀ (d : Nat) (f : Flags) (x y : Byte),
        SameBut { s with flags := f, draws := d }
          (((State.setReg { s with draws := d } gg.lo x).setReg gg.hi y).setFlags f) [gg.lo, gg.hi] [] [] := by
      intro d f x y
      exact ((State.sameBut_setReg { s with draws := d } gg.lo _).trans (State.sameBut_setReg _ gg.hi _)).setFlags _
    have e : s.divPair gg =
        ((State.setReg { s with draws := s.draws + 1 + 1 + 1 } gg.lo (Config.drawByte (s.draws + 1))).setReg gg.hi
          (Config.drawByte (s.draws + 1 + 1))).setFlags
          { s.flags with cf := true, jf := true, zf := Config.drawBit s.draws } := by
      simp only [State.divPair, hd, if_true]; rfl
    rw [e]
    have := key (s.draws + 1 + 1 + 1) { s.flags with cf := true, jf := true, zf := Config.drawBit s.draws }
      (Config.drawByte (s.draws + 1)) (Config.drawByte (s.draws + 1 + 1))
    simpa using this

/-- What a digit rotate does (R185, R186). -/
theorem State.Plain.digitRotate_frame {s : State} (h : s.Plain) (m : Mode) (k : Byte → Byte → Byte × Byte) :
    (s.digitRotate m k).peek (s.resolve m).1 = (k (s.reg .a) (s.peek (s.resolve m).1)).1 ∧
      (s.digitRotate m k).reg .a = (k (s.reg .a) (s.peek (s.resolve m).1)).2 ∧
    SameBut { (s.resolve m).2 with
      flags := { s.flags with
        zf := decide ((s.digitRotate m k).reg .a = 0)
        jf := true } } (s.digitRotate m k)
          [.a] [(s.resolve m).1] [.read (s.resolve m).1 (s.peek (s.resolve m).1),
            .write (s.resolve m).1 ((s.digitRotate m k).peek (s.resolve m).1)] := by
  have hu := h.resolve m
  have h1 := (s.resolve m).2.sameBut_memRead (s.resolve m).1 (hu.served _)
  have hp1 := h1.plain hu
  have ra : ((s.resolve m).2.memRead (s.resolve m).1).2.reg .a = s.reg .a := by
    rw [State.reg_memRead, (s.sameBut_resolve m).reg_eq h.1 .a (by simp)]
  have h2 := State.sameBut_memWrite ((s.resolve m).2.memRead (s.resolve m).1).2 (s.resolve m).1 (k (s.reg .a)
    (s.peek (s.resolve m).1)).1 hp1.2.1
  have h3 := h1.trans h2
  have h4 := State.sameBut_setReg (((s.resolve m).2.memRead (s.resolve m).1).2.memWrite (s.resolve m).1 (k
    (s.reg .a) (s.peek (s.resolve m).1)).1) .a (k (s.reg .a) (s.peek (s.resolve m).1)).2
  have e : s.digitRotate m k = ((((s.resolve m).2.memRead (s.resolve m).1).2.memWrite (s.resolve m).1 (k
    (s.reg .a) (s.peek (s.resolve m).1)).1).setReg .a (k (s.reg .a) (s.peek (s.resolve m).1)).2).setFlags
    (loadFlags s.flags (k (s.reg .a) (s.peek (s.resolve m).1)).2) := by
    simp only [State.digitRotate, State.loadReg]
    rw [ra, hu.memRead, h.peek_resolve]
    simp
  have e1 : (s.digitRotate m k).peek (s.resolve m).1 = (k (s.reg .a) (s.peek (s.resolve m).1)).1 := by
    rw [e, State.peek_setFlags, h4.peek_eq (by simp [h.1]) _ (by simp), hp1.peek_memWrite_self]
  have e2 : (s.digitRotate m k).reg .a = (k (s.reg .a) (s.peek (s.resolve m).1)).2 := by rw [e]; simp
  refine ⟨e1, e2, ?_⟩
  rw [e1, e2, e]
  have := (h3.trans h4).setFlags (loadFlags s.flags (k (s.reg .a) (s.peek (s.resolve m).1)).2)
  rw [h.peek_resolve] at this
  exact this

/-- What a call does (R224). -/
theorem State.Plain.call_frame {u : State} (hu : u.Plain) (target : Word) :
  (u.call target).peek (u.sp - 1) ++ (u.call target).peek (u.sp - 2) = u.pc ∧
        SameBut { u with pc := target, sp := u.sp - 2 } (u.call target) [] [u.sp - 1, u.sp - 2]
          [.write (u.sp - 1) ((u.call target).peek (u.sp - 1)),
            .write (u.sp - 2) ((u.call target).peek (u.sp - 2))] := by
  have e1 : (u.call target).peek (u.sp - 1) = hiByte u.pc := by
    rw [State.call, State.peek_jump, hu.peek_push16, if_neg (by bv_omega), if_pos rfl]
  have e2 : (u.call target).peek (u.sp - 2) = loByte u.pc := by
    rw [State.call, State.peek_jump, hu.peek_push16, if_pos rfl]
  rw [e1, e2]
  exact ⟨joinBytes_loByte_hiByte _, (hu.sameBut_push16 u.pc).jump target⟩

end Sys2Proof.Machine
end

