-- ==== Sys2Proof/Laws/PerInstr.lean ====
section
/-! SUPPORT. Lemmas made for each instruction: the encoding of every instruction is 1 to 4 bytes long
(spec/30_encoding.md R94). -/

namespace Sys2Proof.Laws

/-- The extension bytes of a mode are at most one (R78). -/
theorem mode_ext_length (m : Mode) : m.ext.length ≤ 1 := by cases m <;> simp [Mode.ext]

/-- A source-addressed instruction with at most one immediate byte is 2 to 4 bytes long (R87). -/
theorem srcBytes_length (m : Mode) (o : Byte) (imm : List Byte) (h : imm.length ≤ 1) :
    1 ≤ (srcBytes m o imm).length ∧ (srcBytes m o imm).length ≤ 4 := by
  have := mode_ext_length m
  simp only [srcBytes, List.length_cons, List.length_append]
  omega

/-- A destination-addressed instruction with at most one immediate byte is 2 to 4 bytes long (R88). -/
theorem dstBytes_length (m : Mode) (o : Byte) (imm : List Byte) (h : imm.length ≤ 1) :
    1 ≤ (dstBytes m o imm).length ∧ (dstBytes m o imm).length ≤ 4 := by
  have := mode_ext_length m
  simp only [dstBytes, List.length_cons, List.length_append]
  omega

/-- The encoding of the instruction is 1 to 4 bytes long (R94). -/
def EncodeLength.Statement (i : Instr) : Prop := 1 ≤ (encode i).length ∧ (encode i).length ≤ 4

theorem EncodeLength.nop : EncodeLength.Statement .nop := ⟨Nat.le_of_ble_eq_true rfl, Nat.le_of_ble_eq_true rfl⟩
theorem EncodeLength.swapA : EncodeLength.Statement .swapA := ⟨Nat.le_of_ble_eq_true rfl, Nat.le_of_ble_eq_true rfl⟩
theorem EncodeLength.mulWA : EncodeLength.Statement .mulWA := ⟨Nat.le_of_ble_eq_true rfl, Nat.le_of_ble_eq_true rfl⟩
theorem EncodeLength.divWaC : EncodeLength.Statement .divWaC := ⟨Nat.le_of_ble_eq_true rfl, Nat.le_of_ble_eq_true rfl⟩
theorem EncodeLength.reti : EncodeLength.Statement .reti := ⟨Nat.le_of_ble_eq_true rfl, Nat.le_of_ble_eq_true rfl⟩
theorem EncodeLength.ret : EncodeLength.Statement .ret := ⟨Nat.le_of_ble_eq_true rfl, Nat.le_of_ble_eq_true rfl⟩
theorem EncodeLength.popPsw : EncodeLength.Statement .popPsw := ⟨Nat.le_of_ble_eq_true rfl, Nat.le_of_ble_eq_true rfl⟩
theorem EncodeLength.pushPsw : EncodeLength.Statement .pushPsw :=
    ⟨Nat.le_of_ble_eq_true rfl, Nat.le_of_ble_eq_true rfl⟩
theorem EncodeLength.daaA : EncodeLength.Statement .daaA := ⟨Nat.le_of_ble_eq_true rfl, Nat.le_of_ble_eq_true rfl⟩
theorem EncodeLength.dasA : EncodeLength.Statement .dasA := ⟨Nat.le_of_ble_eq_true rfl, Nat.le_of_ble_eq_true rfl⟩
theorem EncodeLength.clrCf : EncodeLength.Statement .clrCf := ⟨Nat.le_of_ble_eq_true rfl, Nat.le_of_ble_eq_true rfl⟩
theorem EncodeLength.setCf : EncodeLength.Statement .setCf := ⟨Nat.le_of_ble_eq_true rfl, Nat.le_of_ble_eq_true rfl⟩
theorem EncodeLength.cplCf : EncodeLength.Statement .cplCf := ⟨Nat.le_of_ble_eq_true rfl, Nat.le_of_ble_eq_true rfl⟩
theorem EncodeLength.ldRbsN (n : Byte) : EncodeLength.Statement (.ldRbsN n) :=
    ⟨Nat.le_of_ble_eq_true rfl, Nat.le_of_ble_eq_true rfl⟩
theorem EncodeLength.incRr (rr : Pair) : EncodeLength.Statement (.incRr rr) :=
    ⟨Nat.le_of_ble_eq_true rfl, Nat.le_of_ble_eq_true rfl⟩
theorem EncodeLength.ldRrMn (rr : Pair) (mn : Word) : EncodeLength.Statement (.ldRrMn rr mn) :=
    ⟨Nat.le_of_ble_eq_true rfl, Nat.le_of_ble_eq_true rfl⟩
theorem EncodeLength.decRr (rr : Pair) : EncodeLength.Statement (.decRr rr) :=
    ⟨Nat.le_of_ble_eq_true rfl, Nat.le_of_ble_eq_true rfl⟩
theorem EncodeLength.shlcA : EncodeLength.Statement .shlcA := ⟨Nat.le_of_ble_eq_true rfl, Nat.le_of_ble_eq_true rfl⟩
theorem EncodeLength.shrcA : EncodeLength.Statement .shrcA := ⟨Nat.le_of_ble_eq_true rfl, Nat.le_of_ble_eq_true rfl⟩
theorem EncodeLength.rolcA : EncodeLength.Statement .rolcA := ⟨Nat.le_of_ble_eq_true rfl, Nat.le_of_ble_eq_true rfl⟩
theorem EncodeLength.rorcA : EncodeLength.Statement .rorcA := ⟨Nat.le_of_ble_eq_true rfl, Nat.le_of_ble_eq_true rfl⟩
theorem EncodeLength.incX (x : Byte) : EncodeLength.Statement (.incX x) :=
    ⟨Nat.le_of_ble_eq_true rfl, Nat.le_of_ble_eq_true rfl⟩
theorem EncodeLength.incHl : EncodeLength.Statement .incHl := ⟨Nat.le_of_ble_eq_true rfl, Nat.le_of_ble_eq_true rfl⟩
theorem EncodeLength.ldAX (x : Byte) : EncodeLength.Statement (.ldAX x) :=
    ⟨Nat.le_of_ble_eq_true rfl, Nat.le_of_ble_eq_true rfl⟩
theorem EncodeLength.ldAHl : EncodeLength.Statement .ldAHl := ⟨Nat.le_of_ble_eq_true rfl, Nat.le_of_ble_eq_true rfl⟩
theorem EncodeLength.ldwXMn (x : Byte) (mn : Word) : EncodeLength.Statement (.ldwXMn x mn) :=
    ⟨Nat.le_of_ble_eq_true rfl, Nat.le_of_ble_eq_true rfl⟩
theorem EncodeLength.ldwHlMn (mn : Word) : EncodeLength.Statement (.ldwHlMn mn) :=
    ⟨Nat.le_of_ble_eq_true rfl, Nat.le_of_ble_eq_true rfl⟩
theorem EncodeLength.ldXY (x : Byte) (y : Byte) : EncodeLength.Statement (.ldXY x y) :=
    ⟨Nat.le_of_ble_eq_true rfl, Nat.le_of_ble_eq_true rfl⟩
theorem EncodeLength.decX (x : Byte) : EncodeLength.Statement (.decX x) :=
    ⟨Nat.le_of_ble_eq_true rfl, Nat.le_of_ble_eq_true rfl⟩
theorem EncodeLength.decHl : EncodeLength.Statement .decHl := ⟨Nat.le_of_ble_eq_true rfl, Nat.le_of_ble_eq_true rfl⟩
theorem EncodeLength.ldXA (x : Byte) : EncodeLength.Statement (.ldXA x) :=
    ⟨Nat.le_of_ble_eq_true rfl, Nat.le_of_ble_eq_true rfl⟩
theorem EncodeLength.ldHlA : EncodeLength.Statement .ldHlA := ⟨Nat.le_of_ble_eq_true rfl, Nat.le_of_ble_eq_true rfl⟩
theorem EncodeLength.ldXN (x : Byte) (n : Byte) : EncodeLength.Statement (.ldXN x n) :=
    ⟨Nat.le_of_ble_eq_true rfl, Nat.le_of_ble_eq_true rfl⟩
theorem EncodeLength.ldHlN (n : Byte) : EncodeLength.Statement (.ldHlN n) :=
    ⟨Nat.le_of_ble_eq_true rfl, Nat.le_of_ble_eq_true rfl⟩
theorem EncodeLength.clrX (x : Byte) : EncodeLength.Statement (.clrX x) :=
    ⟨Nat.le_of_ble_eq_true rfl, Nat.le_of_ble_eq_true rfl⟩
theorem EncodeLength.clrHl : EncodeLength.Statement .clrHl := ⟨Nat.le_of_ble_eq_true rfl, Nat.le_of_ble_eq_true rfl⟩
theorem EncodeLength.ldRN (r : Reg) (n : Byte) : EncodeLength.Statement (.ldRN r n) :=
    ⟨Nat.le_of_ble_eq_true rfl, Nat.le_of_ble_eq_true rfl⟩
theorem EncodeLength.setXB (x : Byte) (b : BitVec 3) : EncodeLength.Statement (.setXB x b) :=
    ⟨Nat.le_of_ble_eq_true rfl, Nat.le_of_ble_eq_true rfl⟩
theorem EncodeLength.clrXB (x : Byte) (b : BitVec 3) : EncodeLength.Statement (.clrXB x b) :=
    ⟨Nat.le_of_ble_eq_true rfl, Nat.le_of_ble_eq_true rfl⟩
theorem EncodeLength.ldAR (r : Reg) : EncodeLength.Statement (.ldAR r) :=
    ⟨Nat.le_of_ble_eq_true rfl, Nat.le_of_ble_eq_true rfl⟩
theorem EncodeLength.ldRA (r : Reg) : EncodeLength.Statement (.ldRA r) :=
    ⟨Nat.le_of_ble_eq_true rfl, Nat.le_of_ble_eq_true rfl⟩
theorem EncodeLength.incR (r : Reg) : EncodeLength.Statement (.incR r) :=
    ⟨Nat.le_of_ble_eq_true rfl, Nat.le_of_ble_eq_true rfl⟩
theorem EncodeLength.decR (r : Reg) : EncodeLength.Statement (.decR r) :=
    ⟨Nat.le_of_ble_eq_true rfl, Nat.le_of_ble_eq_true rfl⟩
theorem EncodeLength.addcAN (n : Byte) : EncodeLength.Statement (.addcAN n) :=
    ⟨Nat.le_of_ble_eq_true rfl, Nat.le_of_ble_eq_true rfl⟩
theorem EncodeLength.addAN (n : Byte) : EncodeLength.Statement (.addAN n) :=
    ⟨Nat.le_of_ble_eq_true rfl, Nat.le_of_ble_eq_true rfl⟩
theorem EncodeLength.subbAN (n : Byte) : EncodeLength.Statement (.subbAN n) :=
    ⟨Nat.le_of_ble_eq_true rfl, Nat.le_of_ble_eq_true rfl⟩
theorem EncodeLength.subAN (n : Byte) : EncodeLength.Statement (.subAN n) :=
    ⟨Nat.le_of_ble_eq_true rfl, Nat.le_of_ble_eq_true rfl⟩
theorem EncodeLength.andAN (n : Byte) : EncodeLength.Statement (.andAN n) :=
    ⟨Nat.le_of_ble_eq_true rfl, Nat.le_of_ble_eq_true rfl⟩
theorem EncodeLength.xorAN (n : Byte) : EncodeLength.Statement (.xorAN n) :=
    ⟨Nat.le_of_ble_eq_true rfl, Nat.le_of_ble_eq_true rfl⟩
theorem EncodeLength.orAN (n : Byte) : EncodeLength.Statement (.orAN n) :=
    ⟨Nat.le_of_ble_eq_true rfl, Nat.le_of_ble_eq_true rfl⟩
theorem EncodeLength.cmpAN (n : Byte) : EncodeLength.Statement (.cmpAN n) :=
    ⟨Nat.le_of_ble_eq_true rfl, Nat.le_of_ble_eq_true rfl⟩
theorem EncodeLength.addcAX (x : Byte) : EncodeLength.Statement (.addcAX x) :=
    ⟨Nat.le_of_ble_eq_true rfl, Nat.le_of_ble_eq_true rfl⟩
theorem EncodeLength.addAX (x : Byte) : EncodeLength.Statement (.addAX x) :=
    ⟨Nat.le_of_ble_eq_true rfl, Nat.le_of_ble_eq_true rfl⟩
theorem EncodeLength.subbAX (x : Byte) : EncodeLength.Statement (.subbAX x) :=
    ⟨Nat.le_of_ble_eq_true rfl, Nat.le_of_ble_eq_true rfl⟩
theorem EncodeLength.subAX (x : Byte) : EncodeLength.Statement (.subAX x) :=
    ⟨Nat.le_of_ble_eq_true rfl, Nat.le_of_ble_eq_true rfl⟩
theorem EncodeLength.andAX (x : Byte) : EncodeLength.Statement (.andAX x) :=
    ⟨Nat.le_of_ble_eq_true rfl, Nat.le_of_ble_eq_true rfl⟩
theorem EncodeLength.xorAX (x : Byte) : EncodeLength.Statement (.xorAX x) :=
    ⟨Nat.le_of_ble_eq_true rfl, Nat.le_of_ble_eq_true rfl⟩
theorem EncodeLength.orAX (x : Byte) : EncodeLength.Statement (.orAX x) :=
    ⟨Nat.le_of_ble_eq_true rfl, Nat.le_of_ble_eq_true rfl⟩
theorem EncodeLength.cmpAX (x : Byte) : EncodeLength.Statement (.cmpAX x) :=
    ⟨Nat.le_of_ble_eq_true rfl, Nat.le_of_ble_eq_true rfl⟩
theorem EncodeLength.jrsT (d5 : BitVec 5) : EncodeLength.Statement (.jrsT d5) :=
    ⟨Nat.le_of_ble_eq_true rfl, Nat.le_of_ble_eq_true rfl⟩
theorem EncodeLength.jrsF (d5 : BitVec 5) : EncodeLength.Statement (.jrsF d5) :=
    ⟨Nat.le_of_ble_eq_true rfl, Nat.le_of_ble_eq_true rfl⟩
theorem EncodeLength.callv (v4 : BitVec 4) : EncodeLength.Statement (.callv v4) :=
    ⟨Nat.le_of_ble_eq_true rfl, Nat.le_of_ble_eq_true rfl⟩
theorem EncodeLength.jrCc (cc : Cond) (d : Byte) : EncodeLength.Statement (.jrCc cc d) :=
    ⟨Nat.le_of_ble_eq_true rfl, Nat.le_of_ble_eq_true rfl⟩
theorem EncodeLength.ldCfXB (x : Byte) (b : BitVec 3) : EncodeLength.Statement (.ldCfXB x b) :=
    ⟨Nat.le_of_ble_eq_true rfl, Nat.le_of_ble_eq_true rfl⟩
theorem EncodeLength.jr (d : Byte) : EncodeLength.Statement (.jr d) :=
    ⟨Nat.le_of_ble_eq_true rfl, Nat.le_of_ble_eq_true rfl⟩
theorem EncodeLength.roldASrc (m : Mode) : EncodeLength.Statement (.roldASrc m) :=
    srcBytes_length _ _ _ (Nat.le_of_ble_eq_true rfl)
theorem EncodeLength.rordASrc (m : Mode) : EncodeLength.Statement (.rordASrc m) :=
    srcBytes_length _ _ _ (Nat.le_of_ble_eq_true rfl)
theorem EncodeLength.ldRrSrc (rr : Pair) (m : Mode) : EncodeLength.Statement (.ldRrSrc rr m) :=
    srcBytes_length _ _ _ (Nat.le_of_ble_eq_true rfl)
theorem EncodeLength.incSrc (m : Mode) : EncodeLength.Statement (.incSrc m) :=
    srcBytes_length _ _ _ (Nat.le_of_ble_eq_true rfl)
theorem EncodeLength.ldXSrc (x : Byte) (m : Mode) : EncodeLength.Statement (.ldXSrc x m) :=
    srcBytes_length _ _ _ (Nat.le_of_ble_eq_true rfl)
theorem EncodeLength.ldHlSrc (m : Mode) : EncodeLength.Statement (.ldHlSrc m) :=
    srcBytes_length _ _ _ (Nat.le_of_ble_eq_true rfl)
theorem EncodeLength.decSrc (m : Mode) : EncodeLength.Statement (.decSrc m) :=
    srcBytes_length _ _ _ (Nat.le_of_ble_eq_true rfl)
theorem EncodeLength.mcmpSrcN (m : Mode) (n : Byte) : EncodeLength.Statement (.mcmpSrcN m n) :=
    srcBytes_length _ _ _ (Nat.le_of_ble_eq_true rfl)
theorem EncodeLength.setSrcB (m : Mode) (b : BitVec 3) : EncodeLength.Statement (.setSrcB m b) :=
    srcBytes_length _ _ _ (Nat.le_of_ble_eq_true rfl)
theorem EncodeLength.clrSrcB (m : Mode) (b : BitVec 3) : EncodeLength.Statement (.clrSrcB m b) :=
    srcBytes_length _ _ _ (Nat.le_of_ble_eq_true rfl)
theorem EncodeLength.testSrcB (m : Mode) (b : BitVec 3) : EncodeLength.Statement (.testSrcB m b) :=
    srcBytes_length _ _ _ (Nat.le_of_ble_eq_true rfl)
theorem EncodeLength.ldRSrc (r : Reg) (m : Mode) : EncodeLength.Statement (.ldRSrc r m) :=
    srcBytes_length _ _ _ (Nat.le_of_ble_eq_true rfl)
theorem EncodeLength.addcSrcHl (m : Mode) : EncodeLength.Statement (.addcSrcHl m) :=
    srcBytes_length _ _ _ (Nat.le_of_ble_eq_true rfl)
theorem EncodeLength.addSrcHl (m : Mode) : EncodeLength.Statement (.addSrcHl m) :=
    srcBytes_length _ _ _ (Nat.le_of_ble_eq_true rfl)
theorem EncodeLength.subbSrcHl (m : Mode) : EncodeLength.Statement (.subbSrcHl m) :=
    srcBytes_length _ _ _ (Nat.le_of_ble_eq_true rfl)
theorem EncodeLength.subSrcHl (m : Mode) : EncodeLength.Statement (.subSrcHl m) :=
    srcBytes_length _ _ _ (Nat.le_of_ble_eq_true rfl)
theorem EncodeLength.andSrcHl (m : Mode) : EncodeLength.Statement (.andSrcHl m) :=
    srcBytes_length _ _ _ (Nat.le_of_ble_eq_true rfl)
theorem EncodeLength.xorSrcHl (m : Mode) : EncodeLength.Statement (.xorSrcHl m) :=
    srcBytes_length _ _ _ (Nat.le_of_ble_eq_true rfl)
theorem EncodeLength.orSrcHl (m : Mode) : EncodeLength.Statement (.orSrcHl m) :=
    srcBytes_length _ _ _ (Nat.le_of_ble_eq_true rfl)
theorem EncodeLength.cmpSrcHl (m : Mode) : EncodeLength.Statement (.cmpSrcHl m) :=
    srcBytes_length _ _ _ (Nat.le_of_ble_eq_true rfl)
theorem EncodeLength.addcSrcN (m : Mode) (n : Byte) : EncodeLength.Statement (.addcSrcN m n) :=
    srcBytes_length _ _ _ (Nat.le_of_ble_eq_true rfl)
theorem EncodeLength.addSrcN (m : Mode) (n : Byte) : EncodeLength.Statement (.addSrcN m n) :=
    srcBytes_length _ _ _ (Nat.le_of_ble_eq_true rfl)
theorem EncodeLength.subbSrcN (m : Mode) (n : Byte) : EncodeLength.Statement (.subbSrcN m n) :=
    srcBytes_length _ _ _ (Nat.le_of_ble_eq_true rfl)
theorem EncodeLength.subSrcN (m : Mode) (n : Byte) : EncodeLength.Statement (.subSrcN m n) :=
    srcBytes_length _ _ _ (Nat.le_of_ble_eq_true rfl)
theorem EncodeLength.andSrcN (m : Mode) (n : Byte) : EncodeLength.Statement (.andSrcN m n) :=
    srcBytes_length _ _ _ (Nat.le_of_ble_eq_true rfl)
theorem EncodeLength.xorSrcN (m : Mode) (n : Byte) : EncodeLength.Statement (.xorSrcN m n) :=
    srcBytes_length _ _ _ (Nat.le_of_ble_eq_true rfl)
theorem EncodeLength.orSrcN (m : Mode) (n : Byte) : EncodeLength.Statement (.orSrcN m n) :=
    srcBytes_length _ _ _ (Nat.le_of_ble_eq_true rfl)
theorem EncodeLength.cmpSrcN (m : Mode) (n : Byte) : EncodeLength.Statement (.cmpSrcN m n) :=
    srcBytes_length _ _ _ (Nat.le_of_ble_eq_true rfl)
theorem EncodeLength.addcASrc (m : Mode) : EncodeLength.Statement (.addcASrc m) :=
    srcBytes_length _ _ _ (Nat.le_of_ble_eq_true rfl)
theorem EncodeLength.addASrc (m : Mode) : EncodeLength.Statement (.addASrc m) :=
    srcBytes_length _ _ _ (Nat.le_of_ble_eq_true rfl)
theorem EncodeLength.subbASrc (m : Mode) : EncodeLength.Statement (.subbASrc m) :=
    srcBytes_length _ _ _ (Nat.le_of_ble_eq_true rfl)
theorem EncodeLength.subASrc (m : Mode) : EncodeLength.Statement (.subASrc m) :=
    srcBytes_length _ _ _ (Nat.le_of_ble_eq_true rfl)
theorem EncodeLength.andASrc (m : Mode) : EncodeLength.Statement (.andASrc m) :=
    srcBytes_length _ _ _ (Nat.le_of_ble_eq_true rfl)
theorem EncodeLength.xorASrc (m : Mode) : EncodeLength.Statement (.xorASrc m) :=
    srcBytes_length _ _ _ (Nat.le_of_ble_eq_true rfl)
theorem EncodeLength.orASrc (m : Mode) : EncodeLength.Statement (.orASrc m) :=
    srcBytes_length _ _ _ (Nat.le_of_ble_eq_true rfl)
theorem EncodeLength.cmpASrc (m : Mode) : EncodeLength.Statement (.cmpASrc m) :=
    srcBytes_length _ _ _ (Nat.le_of_ble_eq_true rfl)
theorem EncodeLength.xchRSrc (r : Reg) (m : Mode) : EncodeLength.Statement (.xchRSrc r m) :=
    srcBytes_length _ _ _ (Nat.le_of_ble_eq_true rfl)
theorem EncodeLength.cplSrcB (m : Mode) (b : BitVec 3) : EncodeLength.Statement (.cplSrcB m b) :=
    srcBytes_length _ _ _ (Nat.le_of_ble_eq_true rfl)
theorem EncodeLength.ldSrcBCf (m : Mode) (b : BitVec 3) : EncodeLength.Statement (.ldSrcBCf m b) :=
    srcBytes_length _ _ _ (Nat.le_of_ble_eq_true rfl)
theorem EncodeLength.xorCfSrcB (m : Mode) (b : BitVec 3) : EncodeLength.Statement (.xorCfSrcB m b) :=
    srcBytes_length _ _ _ (Nat.le_of_ble_eq_true rfl)
theorem EncodeLength.ldCfSrcB (m : Mode) (b : BitVec 3) : EncodeLength.Statement (.ldCfSrcB m b) :=
    srcBytes_length _ _ _ (Nat.le_of_ble_eq_true rfl)
theorem EncodeLength.callSrc (m : Mode) : EncodeLength.Statement (.callSrc m) :=
    srcBytes_length _ _ _ (Nat.le_of_ble_eq_true rfl)
theorem EncodeLength.jpSrc (m : Mode) : EncodeLength.Statement (.jpSrc m) :=
    srcBytes_length _ _ _ (Nat.le_of_ble_eq_true rfl)
theorem EncodeLength.ldDstRr (m : Mode) (rr : Pair) : EncodeLength.Statement (.ldDstRr m rr) :=
    dstBytes_length _ _ _ (Nat.le_of_ble_eq_true rfl)
theorem EncodeLength.ldDstN (m : Mode) (n : Byte) : EncodeLength.Statement (.ldDstN m n) :=
    dstBytes_length _ _ _ (Nat.le_of_ble_eq_true rfl)
theorem EncodeLength.ldDstR (m : Mode) (r : Reg) : EncodeLength.Statement (.ldDstR m r) :=
    dstBytes_length _ _ _ (Nat.le_of_ble_eq_true rfl)
theorem EncodeLength.swapG (g : Reg) : EncodeLength.Statement (.swapG g) :=
    ⟨Nat.le_of_ble_eq_true rfl, Nat.le_of_ble_eq_true rfl⟩
theorem EncodeLength.mulGg (gg : Pair) : EncodeLength.Statement (.mulGg gg) :=
    ⟨Nat.le_of_ble_eq_true rfl, Nat.le_of_ble_eq_true rfl⟩
theorem EncodeLength.divGgC (gg : Pair) : EncodeLength.Statement (.divGgC gg) :=
    ⟨Nat.le_of_ble_eq_true rfl, Nat.le_of_ble_eq_true rfl⟩
theorem EncodeLength.retn : EncodeLength.Statement .retn := ⟨Nat.le_of_ble_eq_true rfl, Nat.le_of_ble_eq_true rfl⟩
theorem EncodeLength.popGg (gg : Pair) : EncodeLength.Statement (.popGg gg) :=
    ⟨Nat.le_of_ble_eq_true rfl, Nat.le_of_ble_eq_true rfl⟩
theorem EncodeLength.pushGg (gg : Pair) : EncodeLength.Statement (.pushGg gg) :=
    ⟨Nat.le_of_ble_eq_true rfl, Nat.le_of_ble_eq_true rfl⟩
theorem EncodeLength.daaG (g : Reg) : EncodeLength.Statement (.daaG g) :=
    ⟨Nat.le_of_ble_eq_true rfl, Nat.le_of_ble_eq_true rfl⟩
theorem EncodeLength.dasG (g : Reg) : EncodeLength.Statement (.dasG g) :=
    ⟨Nat.le_of_ble_eq_true rfl, Nat.le_of_ble_eq_true rfl⟩
theorem EncodeLength.xchRrGg (rr : Pair) (gg : Pair) : EncodeLength.Statement (.xchRrGg rr gg) :=
    ⟨Nat.le_of_ble_eq_true rfl, Nat.le_of_ble_eq_true rfl⟩
theorem EncodeLength.ldRrGg (rr : Pair) (gg : Pair) : EncodeLength.Statement (.ldRrGg rr gg) :=
    ⟨Nat.le_of_ble_eq_true rfl, Nat.le_of_ble_eq_true rfl⟩
theorem EncodeLength.shlcG (g : Reg) : EncodeLength.Statement (.shlcG g) :=
    ⟨Nat.le_of_ble_eq_true rfl, Nat.le_of_ble_eq_true rfl⟩
theorem EncodeLength.shrcG (g : Reg) : EncodeLength.Statement (.shrcG g) :=
    ⟨Nat.le_of_ble_eq_true rfl, Nat.le_of_ble_eq_true rfl⟩
theorem EncodeLength.rolcG (g : Reg) : EncodeLength.Statement (.rolcG g) :=
    ⟨Nat.le_of_ble_eq_true rfl, Nat.le_of_ble_eq_true rfl⟩
theorem EncodeLength.rorcG (g : Reg) : EncodeLength.Statement (.rorcG g) :=
    ⟨Nat.le_of_ble_eq_true rfl, Nat.le_of_ble_eq_true rfl⟩
theorem EncodeLength.addcWaGg (gg : Pair) : EncodeLength.Statement (.addcWaGg gg) :=
    ⟨Nat.le_of_ble_eq_true rfl, Nat.le_of_ble_eq_true rfl⟩
theorem EncodeLength.addWaGg (gg : Pair) : EncodeLength.Statement (.addWaGg gg) :=
    ⟨Nat.le_of_ble_eq_true rfl, Nat.le_of_ble_eq_true rfl⟩
theorem EncodeLength.subbWaGg (gg : Pair) : EncodeLength.Statement (.subbWaGg gg) :=
    ⟨Nat.le_of_ble_eq_true rfl, Nat.le_of_ble_eq_true rfl⟩
theorem EncodeLength.subWaGg (gg : Pair) : EncodeLength.Statement (.subWaGg gg) :=
    ⟨Nat.le_of_ble_eq_true rfl, Nat.le_of_ble_eq_true rfl⟩
theorem EncodeLength.andWaGg (gg : Pair) : EncodeLength.Statement (.andWaGg gg) :=
    ⟨Nat.le_of_ble_eq_true rfl, Nat.le_of_ble_eq_true rfl⟩
theorem EncodeLength.xorWaGg (gg : Pair) : EncodeLength.Statement (.xorWaGg gg) :=
    ⟨Nat.le_of_ble_eq_true rfl, Nat.le_of_ble_eq_true rfl⟩
theorem EncodeLength.orWaGg (gg : Pair) : EncodeLength.Statement (.orWaGg gg) :=
    ⟨Nat.le_of_ble_eq_true rfl, Nat.le_of_ble_eq_true rfl⟩
theorem EncodeLength.cmpWaGg (gg : Pair) : EncodeLength.Statement (.cmpWaGg gg) :=
    ⟨Nat.le_of_ble_eq_true rfl, Nat.le_of_ble_eq_true rfl⟩
theorem EncodeLength.addcGgMn (gg : Pair) (mn : Word) : EncodeLength.Statement (.addcGgMn gg mn) :=
    ⟨Nat.le_of_ble_eq_true rfl, Nat.le_of_ble_eq_true rfl⟩
theorem EncodeLength.addGgMn (gg : Pair) (mn : Word) : EncodeLength.Statement (.addGgMn gg mn) :=
    ⟨Nat.le_of_ble_eq_true rfl, Nat.le_of_ble_eq_true rfl⟩
theorem EncodeLength.subbGgMn (gg : Pair) (mn : Word) : EncodeLength.Statement (.subbGgMn gg mn) :=
    ⟨Nat.le_of_ble_eq_true rfl, Nat.le_of_ble_eq_true rfl⟩
theorem EncodeLength.subGgMn (gg : Pair) (mn : Word) : EncodeLength.Statement (.subGgMn gg mn) :=
    ⟨Nat.le_of_ble_eq_true rfl, Nat.le_of_ble_eq_true rfl⟩
theorem EncodeLength.andGgMn (gg : Pair) (mn : Word) : EncodeLength.Statement (.andGgMn gg mn) :=
    ⟨Nat.le_of_ble_eq_true rfl, Nat.le_of_ble_eq_true rfl⟩
theorem EncodeLength.xorGgMn (gg : Pair) (mn : Word) : EncodeLength.Statement (.xorGgMn gg mn) :=
    ⟨Nat.le_of_ble_eq_true rfl, Nat.le_of_ble_eq_true rfl⟩
theorem EncodeLength.orGgMn (gg : Pair) (mn : Word) : EncodeLength.Statement (.orGgMn gg mn) :=
    ⟨Nat.le_of_ble_eq_true rfl, Nat.le_of_ble_eq_true rfl⟩
theorem EncodeLength.cmpGgMn (gg : Pair) (mn : Word) : EncodeLength.Statement (.cmpGgMn gg mn) :=
    ⟨Nat.le_of_ble_eq_true rfl, Nat.le_of_ble_eq_true rfl⟩
theorem EncodeLength.setGB (g : Reg) (b : BitVec 3) : EncodeLength.Statement (.setGB g b) :=
    ⟨Nat.le_of_ble_eq_true rfl, Nat.le_of_ble_eq_true rfl⟩
theorem EncodeLength.clrGB (g : Reg) (b : BitVec 3) : EncodeLength.Statement (.clrGB g b) :=
    ⟨Nat.le_of_ble_eq_true rfl, Nat.le_of_ble_eq_true rfl⟩
theorem EncodeLength.ldRG (r : Reg) (g : Reg) : EncodeLength.Statement (.ldRG r g) :=
    ⟨Nat.le_of_ble_eq_true rfl, Nat.le_of_ble_eq_true rfl⟩
theorem EncodeLength.addcAG (g : Reg) : EncodeLength.Statement (.addcAG g) :=
    ⟨Nat.le_of_ble_eq_true rfl, Nat.le_of_ble_eq_true rfl⟩
theorem EncodeLength.addAG (g : Reg) : EncodeLength.Statement (.addAG g) :=
    ⟨Nat.le_of_ble_eq_true rfl, Nat.le_of_ble_eq_true rfl⟩
theorem EncodeLength.subbAG (g : Reg) : EncodeLength.Statement (.subbAG g) :=
    ⟨Nat.le_of_ble_eq_true rfl, Nat.le_of_ble_eq_true rfl⟩
theorem EncodeLength.subAG (g : Reg) : EncodeLength.Statement (.subAG g) :=
    ⟨Nat.le_of_ble_eq_true rfl, Nat.le_of_ble_eq_true rfl⟩
theorem EncodeLength.andAG (g : Reg) : EncodeLength.Statement (.andAG g) :=
    ⟨Nat.le_of_ble_eq_true rfl, Nat.le_of_ble_eq_true rfl⟩
theorem EncodeLength.xorAG (g : Reg) : EncodeLength.Statement (.xorAG g) :=
    ⟨Nat.le_of_ble_eq_true rfl, Nat.le_of_ble_eq_true rfl⟩
theorem EncodeLength.orAG (g : Reg) : EncodeLength.Statement (.orAG g) :=
    ⟨Nat.le_of_ble_eq_true rfl, Nat.le_of_ble_eq_true rfl⟩
theorem EncodeLength.cmpAG (g : Reg) : EncodeLength.Statement (.cmpAG g) :=
    ⟨Nat.le_of_ble_eq_true rfl, Nat.le_of_ble_eq_true rfl⟩
theorem EncodeLength.addcGA (g : Reg) : EncodeLength.Statement (.addcGA g) :=
    ⟨Nat.le_of_ble_eq_true rfl, Nat.le_of_ble_eq_true rfl⟩
theorem EncodeLength.addGA (g : Reg) : EncodeLength.Statement (.addGA g) :=
    ⟨Nat.le_of_ble_eq_true rfl, Nat.le_of_ble_eq_true rfl⟩
theorem EncodeLength.subbGA (g : Reg) : EncodeLength.Statement (.subbGA g) :=
    ⟨Nat.le_of_ble_eq_true rfl, Nat.le_of_ble_eq_true rfl⟩
theorem EncodeLength.subGA (g : Reg) : EncodeLength.Statement (.subGA g) :=
    ⟨Nat.le_of_ble_eq_true rfl, Nat.le_of_ble_eq_true rfl⟩
theorem EncodeLength.andGA (g : Reg) : EncodeLength.Statement (.andGA g) :=
    ⟨Nat.le_of_ble_eq_true rfl, Nat.le_of_ble_eq_true rfl⟩
theorem EncodeLength.xorGA (g : Reg) : EncodeLength.Statement (.xorGA g) :=
    ⟨Nat.le_of_ble_eq_true rfl, Nat.le_of_ble_eq_true rfl⟩
theorem EncodeLength.orGA (g : Reg) : EncodeLength.Statement (.orGA g) :=
    ⟨Nat.le_of_ble_eq_true rfl, Nat.le_of_ble_eq_true rfl⟩
theorem EncodeLength.cmpGA (g : Reg) : EncodeLength.Statement (.cmpGA g) :=
    ⟨Nat.le_of_ble_eq_true rfl, Nat.le_of_ble_eq_true rfl⟩
theorem EncodeLength.addcGN (g : Reg) (n : Byte) : EncodeLength.Statement (.addcGN g n) :=
    ⟨Nat.le_of_ble_eq_true rfl, Nat.le_of_ble_eq_true rfl⟩
theorem EncodeLength.addGN (g : Reg) (n : Byte) : EncodeLength.Statement (.addGN g n) :=
    ⟨Nat.le_of_ble_eq_true rfl, Nat.le_of_ble_eq_true rfl⟩
theorem EncodeLength.subbGN (g : Reg) (n : Byte) : EncodeLength.Statement (.subbGN g n) :=
    ⟨Nat.le_of_ble_eq_true rfl, Nat.le_of_ble_eq_true rfl⟩
theorem EncodeLength.subGN (g : Reg) (n : Byte) : EncodeLength.Statement (.subGN g n) :=
    ⟨Nat.le_of_ble_eq_true rfl, Nat.le_of_ble_eq_true rfl⟩
theorem EncodeLength.andGN (g : Reg) (n : Byte) : EncodeLength.Statement (.andGN g n) :=
    ⟨Nat.le_of_ble_eq_true rfl, Nat.le_of_ble_eq_true rfl⟩
theorem EncodeLength.xorGN (g : Reg) (n : Byte) : EncodeLength.Statement (.xorGN g n) :=
    ⟨Nat.le_of_ble_eq_true rfl, Nat.le_of_ble_eq_true rfl⟩
theorem EncodeLength.orGN (g : Reg) (n : Byte) : EncodeLength.Statement (.orGN g n) :=
    ⟨Nat.le_of_ble_eq_true rfl, Nat.le_of_ble_eq_true rfl⟩
theorem EncodeLength.cmpGN (g : Reg) (n : Byte) : EncodeLength.Statement (.cmpGN g n) :=
    ⟨Nat.le_of_ble_eq_true rfl, Nat.le_of_ble_eq_true rfl⟩
theorem EncodeLength.setPpG (pp : Pair) (g : Reg) : EncodeLength.Statement (.setPpG pp g) :=
    ⟨Nat.le_of_ble_eq_true rfl, Nat.le_of_ble_eq_true rfl⟩
theorem EncodeLength.clrPpG (pp : Pair) (g : Reg) : EncodeLength.Statement (.clrPpG pp g) :=
    ⟨Nat.le_of_ble_eq_true rfl, Nat.le_of_ble_eq_true rfl⟩
theorem EncodeLength.cplPpG (pp : Pair) (g : Reg) : EncodeLength.Statement (.cplPpG pp g) :=
    ⟨Nat.le_of_ble_eq_true rfl, Nat.le_of_ble_eq_true rfl⟩
theorem EncodeLength.ldPpGCf (pp : Pair) (g : Reg) : EncodeLength.Statement (.ldPpGCf pp g) :=
    ⟨Nat.le_of_ble_eq_true rfl, Nat.le_of_ble_eq_true rfl⟩
theorem EncodeLength.ldCfPpG (pp : Pair) (g : Reg) : EncodeLength.Statement (.ldCfPpG pp g) :=
    ⟨Nat.le_of_ble_eq_true rfl, Nat.le_of_ble_eq_true rfl⟩
theorem EncodeLength.xchRG (r : Reg) (g : Reg) : EncodeLength.Statement (.xchRG r g) :=
    ⟨Nat.le_of_ble_eq_true rfl, Nat.le_of_ble_eq_true rfl⟩
theorem EncodeLength.cplGB (g : Reg) (b : BitVec 3) : EncodeLength.Statement (.cplGB g b) :=
    ⟨Nat.le_of_ble_eq_true rfl, Nat.le_of_ble_eq_true rfl⟩
theorem EncodeLength.ldGBCf (g : Reg) (b : BitVec 3) : EncodeLength.Statement (.ldGBCf g b) :=
    ⟨Nat.le_of_ble_eq_true rfl, Nat.le_of_ble_eq_true rfl⟩
theorem EncodeLength.xorCfGB (g : Reg) (b : BitVec 3) : EncodeLength.Statement (.xorCfGB g b) :=
    ⟨Nat.le_of_ble_eq_true rfl, Nat.le_of_ble_eq_true rfl⟩
theorem EncodeLength.ldCfGB (g : Reg) (b : BitVec 3) : EncodeLength.Statement (.ldCfGB g b) :=
    ⟨Nat.le_of_ble_eq_true rfl, Nat.le_of_ble_eq_true rfl⟩
theorem EncodeLength.ldSpGg (gg : Pair) : EncodeLength.Statement (.ldSpGg gg) :=
    ⟨Nat.le_of_ble_eq_true rfl, Nat.le_of_ble_eq_true rfl⟩
theorem EncodeLength.ldGgSp (gg : Pair) : EncodeLength.Statement (.ldGgSp gg) :=
    ⟨Nat.le_of_ble_eq_true rfl, Nat.le_of_ble_eq_true rfl⟩
theorem EncodeLength.callGg (gg : Pair) : EncodeLength.Statement (.callGg gg) :=
    ⟨Nat.le_of_ble_eq_true rfl, Nat.le_of_ble_eq_true rfl⟩
theorem EncodeLength.jpGg (gg : Pair) : EncodeLength.Statement (.jpGg gg) :=
    ⟨Nat.le_of_ble_eq_true rfl, Nat.le_of_ble_eq_true rfl⟩
theorem EncodeLength.ldSpMn (mn : Word) : EncodeLength.Statement (.ldSpMn mn) :=
    ⟨Nat.le_of_ble_eq_true rfl, Nat.le_of_ble_eq_true rfl⟩
theorem EncodeLength.callMn (mn : Word) : EncodeLength.Statement (.callMn mn) :=
    ⟨Nat.le_of_ble_eq_true rfl, Nat.le_of_ble_eq_true rfl⟩
theorem EncodeLength.callp (n : Byte) : EncodeLength.Statement (.callp n) :=
    ⟨Nat.le_of_ble_eq_true rfl, Nat.le_of_ble_eq_true rfl⟩
theorem EncodeLength.jpMn (mn : Word) : EncodeLength.Statement (.jpMn mn) :=
    ⟨Nat.le_of_ble_eq_true rfl, Nat.le_of_ble_eq_true rfl⟩
theorem EncodeLength.swi : EncodeLength.Statement .swi := ⟨Nat.le_of_ble_eq_true rfl, Nat.le_of_ble_eq_true rfl⟩

end Sys2Proof.Laws
end

