-- ==== Sys2Proof/Tests/Slice0.lean ====
section
/-! SUPPORT. Tests on fixed values: the checks of WellFormed, one word of every opcode-table row written out from the
table, single steps from the vectors of spec/95_test_vectors.md, and a witness for the hypotheses of every
statement that has some. -/

namespace Sys2Proof.Tests

open Sys2Proof Sys2Proof.Machine

/-! ## WellFormed: each check refuses an ill-formed term (R74, R189) -/

theorem test_wellFormed_refuses_setPpG : (Instr.setPpG .wa .a).wellFormed = false := by decide
theorem test_wellFormed_refuses_clrPpG : (Instr.clrPpG .bc .a).wellFormed = false := by decide
theorem test_wellFormed_refuses_cplPpG : (Instr.cplPpG .wa .a).wellFormed = false := by decide
theorem test_wellFormed_refuses_ldPpGCf : (Instr.ldPpGCf .bc .a).wellFormed = false := by decide
theorem test_wellFormed_refuses_ldCfPpG : (Instr.ldCfPpG .wa .a).wellFormed = false := by decide

/-! ## Decoding: a word of every row, from the match, the fields and the immediates of spec/opcode_table.json -/

theorem test_decode_single_1 :
    decode [0x00] = .instr .nop [] ∧
    decode [0x01] = .instr .swapA [] ∧
    decode [0x02] = .instr .mulWA [] ∧
    decode [0x03] = .instr .divWaC [] ∧
    decode [0x04] = .instr .reti [] ∧
    decode [0x05] = .instr .ret [] ∧
    decode [0x06] = .instr .popPsw [] ∧
    decode [0x07] = .instr .pushPsw [] ∧
    decode [0x0A] = .instr .daaA [] ∧
    decode [0x0B] = .instr .dasA [] ∧
    decode [0x0C] = .instr .clrCf [] ∧
    decode [0x0D] = .instr .setCf [] := by
  decide

theorem test_decode_single_2 :
    decode [0x0E] = .instr .cplCf [] ∧
    decode [0x0F, 0x5A] = .instr (.ldRbsN 0x5A) [] ∧
    decode [0x12] = .instr (.incRr .de) [] ∧
    decode [0x17, 0xCD, 0xAB] = .instr (.ldRrMn .hl 0xABCD) [] ∧
    decode [0x18] = .instr (.decRr .wa) [] ∧
    decode [0x1C] = .instr .shlcA [] ∧
    decode [0x1D] = .instr .shrcA [] ∧
    decode [0x1E] = .instr .rolcA [] ∧
    decode [0x1F] = .instr .rorcA [] ∧
    decode [0x20, 0x21] = .instr (.incX 0x21) [] ∧
    decode [0x21] = .instr .incHl [] ∧
    decode [0x22, 0x21] = .instr (.ldAX 0x21) [] := by
  decide

theorem test_decode_single_3 :
    decode [0x23] = .instr .ldAHl [] ∧
    decode [0x24, 0x21, 0xCD, 0xAB] = .instr (.ldwXMn 0x21 0xABCD) [] ∧
    decode [0x25, 0xCD, 0xAB] = .instr (.ldwHlMn 0xABCD) [] ∧
    decode [0x26, 0x84, 0x21] = .instr (.ldXY 0x21 0x84) [] ∧
    decode [0x28, 0x21] = .instr (.decX 0x21) [] ∧
    decode [0x29] = .instr .decHl [] ∧
    decode [0x2A, 0x21] = .instr (.ldXA 0x21) [] ∧
    decode [0x2B] = .instr .ldHlA [] ∧
    decode [0x2C, 0x21, 0x5A] = .instr (.ldXN 0x21 0x5A) [] ∧
    decode [0x2D, 0x5A] = .instr (.ldHlN 0x5A) [] ∧
    decode [0x2E, 0x21] = .instr (.clrX 0x21) [] ∧
    decode [0x2F] = .instr .clrHl [] := by
  decide

theorem test_decode_single_4 :
    decode [0x35, 0x5A] = .instr (.ldRN .d 0x5A) [] ∧
    decode [0x47, 0x21] = .instr (.setXB 0x21 7) [] ∧
    decode [0x4A, 0x21] = .instr (.clrXB 0x21 2) [] ∧
    decode [0x50] = .instr (.ldAR .a) [] ∧
    decode [0x5B] = .instr (.ldRA .b) [] ∧
    decode [0x66] = .instr (.incR .l) [] ∧
    decode [0x69] = .instr (.decR .w) [] ∧
    decode [0x70, 0x5A] = .instr (.addcAN 0x5A) [] ∧
    decode [0x71, 0x5A] = .instr (.addAN 0x5A) [] ∧
    decode [0x72, 0x5A] = .instr (.subbAN 0x5A) [] ∧
    decode [0x73, 0x5A] = .instr (.subAN 0x5A) [] ∧
    decode [0x74, 0x5A] = .instr (.andAN 0x5A) [] := by
  decide

theorem test_decode_single_5 :
    decode [0x75, 0x5A] = .instr (.xorAN 0x5A) [] ∧
    decode [0x76, 0x5A] = .instr (.orAN 0x5A) [] ∧
    decode [0x77, 0x5A] = .instr (.cmpAN 0x5A) [] ∧
    decode [0x78, 0x21] = .instr (.addcAX 0x21) [] ∧
    decode [0x79, 0x21] = .instr (.addAX 0x21) [] ∧
    decode [0x7A, 0x21] = .instr (.subbAX 0x21) [] ∧
    decode [0x7B, 0x21] = .instr (.subAX 0x21) [] ∧
    decode [0x7C, 0x21] = .instr (.andAX 0x21) [] ∧
    decode [0x7D, 0x21] = .instr (.xorAX 0x21) [] ∧
    decode [0x7E, 0x21] = .instr (.orAX 0x21) [] ∧
    decode [0x7F, 0x21] = .instr (.cmpAX 0x21) [] ∧
    decode [0x9E] = .instr (.jrsT 0x1E) [] := by
  decide

theorem test_decode_single_6 :
    decode [0xBE] = .instr (.jrsF 0x1E) [] ∧
    decode [0xCA] = .instr (.callv 0xA) [] ∧
    decode [0xD3, 0xFB] = .instr (.jrCc .ge 0xFB) [] ∧
    decode [0xDD, 0x21] = .instr (.ldCfXB 0x21 5) [] ∧
    decode [0xFB, 0xFB] = .instr (.jr 0xFB) [] := by
  decide

theorem test_decode_source_1 :
    decode [0xE6, 0x08] = .instr (.roldASrc .hlInc) [] ∧
    decode [0xE1, 0x09] = .instr (.rordASrc .pcA) [] ∧
    decode [0xE4, 0xFE, 0x15] = .instr (.ldRrSrc .bc (.hlDisp 0xFE)) [] ∧
    decode [0xE7, 0x20] = .instr (.incSrc .hlDec) [] ∧
    decode [0xE2, 0x26, 0x21] = .instr (.ldXSrc 0x21 .de) [] ∧
    decode [0xE5, 0x27] = .instr (.ldHlSrc .hlC) [] ∧
    decode [0xE0, 0x40, 0x28] = .instr (.decSrc (.direct 0x40)) [] ∧
    decode [0xE3, 0x2F, 0x5A] = .instr (.mcmpSrcN .hl 0x5A) [] ∧
    decode [0xE6, 0x40] = .instr (.setSrcB .hlInc 0) [] ∧
    decode [0xE1, 0x4B] = .instr (.clrSrcB .pcA 3) [] ∧
    decode [0xE4, 0xFE, 0x56] = .instr (.testSrcB (.hlDisp 0xFE) 6) [] ∧
    decode [0xE7, 0x5C] = .instr (.ldRSrc .e .hlDec) [] := by
  decide

theorem test_decode_source_2 :
    decode [0xE2, 0x60] = .instr (.addcSrcHl .de) [] ∧
    decode [0xE5, 0x61] = .instr (.addSrcHl .hlC) [] ∧
    decode [0xE0, 0x40, 0x62] = .instr (.subbSrcHl (.direct 0x40)) [] ∧
    decode [0xE3, 0x63] = .instr (.subSrcHl .hl) [] ∧
    decode [0xE6, 0x64] = .instr (.andSrcHl .hlInc) [] ∧
    decode [0xE1, 0x65] = .instr (.xorSrcHl .pcA) [] ∧
    decode [0xE4, 0xFE, 0x66] = .instr (.orSrcHl (.hlDisp 0xFE)) [] ∧
    decode [0xE7, 0x67] = .instr (.cmpSrcHl .hlDec) [] ∧
    decode [0xE2, 0x68, 0x5A] = .instr (.addcSrcN .de 0x5A) [] ∧
    decode [0xE5, 0x69, 0x5A] = .instr (.addSrcN .hlC 0x5A) [] ∧
    decode [0xE0, 0x40, 0x6A, 0x5A] = .instr (.subbSrcN (.direct 0x40) 0x5A) [] ∧
    decode [0xE3, 0x6B, 0x5A] = .instr (.subSrcN .hl 0x5A) [] := by
  decide

theorem test_decode_source_3 :
    decode [0xE6, 0x6C, 0x5A] = .instr (.andSrcN .hlInc 0x5A) [] ∧
    decode [0xE1, 0x6D, 0x5A] = .instr (.xorSrcN .pcA 0x5A) [] ∧
    decode [0xE4, 0xFE, 0x6E, 0x5A] = .instr (.orSrcN (.hlDisp 0xFE) 0x5A) [] ∧
    decode [0xE7, 0x6F, 0x5A] = .instr (.cmpSrcN .hlDec 0x5A) [] ∧
    decode [0xE2, 0x78] = .instr (.addcASrc .de) [] ∧
    decode [0xE5, 0x79] = .instr (.addASrc .hlC) [] ∧
    decode [0xE0, 0x40, 0x7A] = .instr (.subbASrc (.direct 0x40)) [] ∧
    decode [0xE3, 0x7B] = .instr (.subASrc .hl) [] ∧
    decode [0xE6, 0x7C] = .instr (.andASrc .hlInc) [] ∧
    decode [0xE1, 0x7D] = .instr (.xorASrc .pcA) [] ∧
    decode [0xE4, 0xFE, 0x7E] = .instr (.orASrc (.hlDisp 0xFE)) [] ∧
    decode [0xE7, 0x7F] = .instr (.cmpASrc .hlDec) [] := by
  decide

theorem test_decode_source_4 :
    decode [0xE2, 0xAF] = .instr (.xchRSrc .h .de) [] ∧
    decode [0xE5, 0xC1] = .instr (.cplSrcB .hlC 1) [] ∧
    decode [0xE0, 0x40, 0xCC] = .instr (.ldSrcBCf (.direct 0x40) 4) [] ∧
    decode [0xE3, 0xD7] = .instr (.xorCfSrcB .hl 7) [] ∧
    decode [0xE6, 0xDA] = .instr (.ldCfSrcB .hlInc 2) [] ∧
    decode [0xE1, 0xFC] = .instr (.callSrc .pcA) [] ∧
    decode [0xE4, 0xFE, 0xFE] = .instr (.jpSrc (.hlDisp 0xFE)) [] := by
  decide

theorem test_decode_destination_1 :
    decode [0xF7, 0x12] = .instr (.ldDstRr .hlDec .de) [] ∧
    decode [0xF2, 0x2C, 0x5A] = .instr (.ldDstN .de 0x5A) [] ∧
    decode [0xF5, 0x52] = .instr (.ldDstR .hlC .c) [] := by
  decide

theorem test_decode_register_1 :
    decode [0xEE, 0x01] = .instr (.swapG .l) [] ∧
    decode [0xEB, 0x02] = .instr (.mulGg .hl) [] ∧
    decode [0xE8, 0x03] = .instr (.divGgC .wa) [] ∧
    decode [0xE8, 0x04] = .instr .retn [] ∧
    decode [0xE9, 0x06] = .instr (.popGg .bc) [] ∧
    decode [0xEA, 0x07] = .instr (.pushGg .de) [] ∧
    decode [0xE9, 0x0A] = .instr (.daaG .w) [] ∧
    decode [0xEC, 0x0B] = .instr (.dasG .e) [] ∧
    decode [0xEB, 0x13] = .instr (.xchRrGg .hl .hl) [] ∧
    decode [0xE8, 0x14] = .instr (.ldRrGg .wa .wa) [] ∧
    decode [0xEF, 0x1C] = .instr (.shlcG .h) [] ∧
    decode [0xEA, 0x1D] = .instr (.shrcG .c) [] := by
  decide

theorem test_decode_register_2 :
    decode [0xED, 0x1E] = .instr (.rolcG .d) [] ∧
    decode [0xE8, 0x1F] = .instr (.rorcG .a) [] ∧
    decode [0xE9, 0x30] = .instr (.addcWaGg .bc) [] ∧
    decode [0xEA, 0x31] = .instr (.addWaGg .de) [] ∧
    decode [0xEB, 0x32] = .instr (.subbWaGg .hl) [] ∧
    decode [0xE8, 0x33] = .instr (.subWaGg .wa) [] ∧
    decode [0xE9, 0x34] = .instr (.andWaGg .bc) [] ∧
    decode [0xEA, 0x35] = .instr (.xorWaGg .de) [] ∧
    decode [0xEB, 0x36] = .instr (.orWaGg .hl) [] ∧
    decode [0xE8, 0x37] = .instr (.cmpWaGg .wa) [] ∧
    decode [0xE9, 0x38, 0xCD, 0xAB] = .instr (.addcGgMn .bc 0xABCD) [] ∧
    decode [0xEA, 0x39, 0xCD, 0xAB] = .instr (.addGgMn .de 0xABCD) [] := by
  decide

theorem test_decode_register_3 :
    decode [0xEB, 0x3A, 0xCD, 0xAB] = .instr (.subbGgMn .hl 0xABCD) [] ∧
    decode [0xE8, 0x3B, 0xCD, 0xAB] = .instr (.subGgMn .wa 0xABCD) [] ∧
    decode [0xE9, 0x3C, 0xCD, 0xAB] = .instr (.andGgMn .bc 0xABCD) [] ∧
    decode [0xEA, 0x3D, 0xCD, 0xAB] = .instr (.xorGgMn .de 0xABCD) [] ∧
    decode [0xEB, 0x3E, 0xCD, 0xAB] = .instr (.orGgMn .hl 0xABCD) [] ∧
    decode [0xE8, 0x3F, 0xCD, 0xAB] = .instr (.cmpGgMn .wa 0xABCD) [] ∧
    decode [0xEB, 0x45] = .instr (.setGB .b 5) [] ∧
    decode [0xEE, 0x48] = .instr (.clrGB .l 0) [] ∧
    decode [0xE9, 0x5D] = .instr (.ldRG .d .w) [] ∧
    decode [0xEC, 0x60] = .instr (.addcAG .e) [] ∧
    decode [0xEF, 0x61] = .instr (.addAG .h) [] ∧
    decode [0xEA, 0x62] = .instr (.subbAG .c) [] := by
  decide

theorem test_decode_register_4 :
    decode [0xED, 0x63] = .instr (.subAG .d) [] ∧
    decode [0xE8, 0x64] = .instr (.andAG .a) [] ∧
    decode [0xEB, 0x65] = .instr (.xorAG .b) [] ∧
    decode [0xEE, 0x66] = .instr (.orAG .l) [] ∧
    decode [0xE9, 0x67] = .instr (.cmpAG .w) [] ∧
    decode [0xEC, 0x68] = .instr (.addcGA .e) [] ∧
    decode [0xEF, 0x69] = .instr (.addGA .h) [] ∧
    decode [0xEA, 0x6A] = .instr (.subbGA .c) [] ∧
    decode [0xED, 0x6B] = .instr (.subGA .d) [] ∧
    decode [0xE8, 0x6C] = .instr (.andGA .a) [] ∧
    decode [0xEB, 0x6D] = .instr (.xorGA .b) [] ∧
    decode [0xEE, 0x6E] = .instr (.orGA .l) [] := by
  decide

theorem test_decode_register_5 :
    decode [0xE9, 0x6F] = .instr (.cmpGA .w) [] ∧
    decode [0xEC, 0x70, 0x5A] = .instr (.addcGN .e 0x5A) [] ∧
    decode [0xEF, 0x71, 0x5A] = .instr (.addGN .h 0x5A) [] ∧
    decode [0xEA, 0x72, 0x5A] = .instr (.subbGN .c 0x5A) [] ∧
    decode [0xED, 0x73, 0x5A] = .instr (.subGN .d 0x5A) [] ∧
    decode [0xE8, 0x74, 0x5A] = .instr (.andGN .a 0x5A) [] ∧
    decode [0xEB, 0x75, 0x5A] = .instr (.xorGN .b 0x5A) [] ∧
    decode [0xEE, 0x76, 0x5A] = .instr (.orGN .l 0x5A) [] ∧
    decode [0xE9, 0x77, 0x5A] = .instr (.cmpGN .w 0x5A) [] ∧
    decode [0xEC, 0x83] = .instr (.setPpG .hl .e) [] ∧
    decode [0xEF, 0x8A] = .instr (.clrPpG .de .h) [] ∧
    decode [0xEA, 0x93] = .instr (.cplPpG .hl .c) [] := by
  decide

theorem test_decode_register_6 :
    decode [0xED, 0x9A] = .instr (.ldPpGCf .de .d) [] ∧
    decode [0xE8, 0x9F] = .instr (.ldCfPpG .hl .a) [] ∧
    decode [0xEB, 0xA8] = .instr (.xchRG .a .b) [] ∧
    decode [0xEE, 0xC3] = .instr (.cplGB .l 3) [] ∧
    decode [0xE9, 0xCE] = .instr (.ldGBCf .w 6) [] ∧
    decode [0xEC, 0xD1] = .instr (.xorCfGB .e 1) [] ∧
    decode [0xEF, 0xDC] = .instr (.ldCfGB .h 4) [] ∧
    decode [0xE9, 0xFA] = .instr (.ldSpGg .bc) [] ∧
    decode [0xEA, 0xFB] = .instr (.ldGgSp .de) [] ∧
    decode [0xEB, 0xFC] = .instr (.callGg .hl) [] ∧
    decode [0xE8, 0xFE] = .instr (.jpGg .wa) [] := by
  decide

theorem test_decode_control_1 :
    decode [0xFF, 0xFA, 0xCD, 0xAB] = .instr (.ldSpMn 0xABCD) [] ∧
    decode [0xFF, 0xFC, 0xCD, 0xAB] = .instr (.callMn 0xABCD) [] ∧
    decode [0xFF, 0xFD, 0x5A] = .instr (.callp 0x5A) [] ∧
    decode [0xFF, 0xFE, 0xCD, 0xAB] = .instr (.jpMn 0xABCD) [] ∧
    decode [0xFF, 0xFF] = .instr .swi [] := by
  decide

/-! ## Single steps, from spec/95_test_vectors.md (the number of the vector is in the name) -/

/-- State.reset with PC at `a` and the bytes of one instruction there. -/
def code (a : Word) (bytes : List Byte) : State := ({ State.reset with pc := a } : State).place a bytes

/-- The state after one step. -/
def after (s : State) : Option State :=
  match step s with
  | .next t => some t
  | .fault _ => none
  | .refused _ => none

theorem test_T8 : (after ((code 0x1000 [0xE6, 0x58] |>.setPair .hl 0xFFFF |>.place 0xFFFF [0x5A]))).map
    (fun t => ((t.pair .hl, t.reg .a, t.flags.jf), (t.flags.zf, t.pc))) =
    some ((0x0000, 0x5A, true), (false, 0x1002)) := by
  decide

theorem test_T9 : (after ((code 0x1000 [0xE6, 0x5E] |>.setPair .hl 0x02FF |>.place 0x02FF [0x77]))).map
    (fun t => (t.pair .hl, t.flags.jf, t.flags.zf, t.pc)) =
    some (0x0377, true, false, 0x1002) := by
  decide

theorem test_T10 : (after ((code 0x1000 [0xE6, 0x5F] |>.setPair .hl 0x02FF |>.place 0x02FF [0x77]))).map
    (fun t => (t.pair .hl, t.flags.jf, t.flags.zf, t.pc)) =
    some (0x7700, true, false, 0x1002) := by
  decide

theorem test_T11 : (after ((code 0x1000 [0xE1, 0x5B] |>.setReg .a 0x10 |>.place 0x1012 [0x9C]))).map
    (fun t => (t.reg .b, t.flags.jf, t.flags.zf, t.pc)) =
    some (0x9C, true, false, 0x1002) := by
  decide

theorem test_T12 : (after ((code 0x1000 [0xE5, 0x58] |>.setPair .hl 0x0200 |>.setReg .c 0xFF |>.place 0x01FF [0x42]))).map
    (fun t => (t.reg .a, t.flags.jf, t.flags.zf, t.pc)) =
    some (0x42, true, false, 0x1002) := by
  decide

theorem test_T13 : (after ((code 0x1000 [0xE4, 0x80, 0x58] |>.setPair .hl 0x0200 |>.place 0x0180 [0x24]))).map
    (fun t => (t.reg .a, t.flags.jf, t.flags.zf, t.pc)) =
    some (0x24, true, false, 0x1003) := by
  decide

theorem test_T18 : (after ((code 0x1000 [0xF7, 0x56] |>.setPair .hl 0x0300))).map
    (fun t => (t.pair .hl, t.peek 0x02FF, t.flags.jf, t.pc)) =
    some (0x02FF, 0xFF, true, 0x1002) := by
  decide

theorem test_T19 : (after ((code 0x1000 [0xF1, 0x53] |>.setReg .a 0x07 |>.setReg .b 0xAA))).map
    (fun t => (t.peek 0x1009, t.flags.jf, t.pc)) =
    some (0xAA, true, 0x1002) := by
  decide

theorem test_T22 : (after ((code 0x1000 [0xF4, 0x02, 0x2C, 0x99] |>.setPair .hl 0x0500))).map
    (fun t => (t.peek 0x0502, t.flags.jf, t.pc)) =
    some (0x99, true, 0x1004) := by
  decide

theorem test_T23 : (after ((code 0x1000 [0xF7, 0x2C, 0x55] |>.setPair .hl 0x0000))).map
    (fun t => (t.pair .hl, t.peek 0xFFFF, t.flags.jf, t.pc)) =
    some (0xFFFF, 0x55, true, 0x1003) := by
  decide

theorem test_T24 : (after ((code 0x1000 [0x26, 0x20, 0x21] |>.place 0x0020 [0x44]))).map
    (fun t => (t.peek 0x0021, t.flags.jf, t.pc)) =
    some (0x44, true, 0x1003) := by
  decide

theorem test_T27 : (after ((code 0x1000 [0xE6, 0x27] |>.setPair .hl 0x0200 |>.place 0x0200 [0x66]))).map
    (fun t => (t.reg .l, t.peek 0x0201, t.flags.jf, t.pc)) =
    some (0x01, 0x66, true, 0x1002) := by
  decide

theorem test_T31 : (after ((code 0x1000 [0xE6, 0x14] |>.setPair .hl 0x0200 |>.place 0x0200 [0x34, 0x12]))).map
    (fun t => (t.pair .wa, t.reg .l, t.flags.jf, t.pc)) =
    some (0x1234, 0x01, true, 0x1002) := by
  decide

theorem test_T33 : (after ((code 0x1000 [0xF3, 0x11] |>.setPair .hl 0xFFFF |>.setPair .bc 0xBEEF))).map
    (fun t => (t.peek 0x0000, t.peek 0xFFFF, t.flags.jf, t.pc)) =
    some (0xBE, 0xEF, true, 0x1002) := by
  decide

theorem test_T35 : (after (code 0x1000 [0x24, 0xFF, 0x01, 0x02])).map
    (fun t => ([t.peek 0x00FF, t.peek 0x0100], t.flags.jf, t.pc)) =
    some ([0x01, 0x02], true, 0x1004) := by
  decide

theorem test_T39 : (after ((code 0x1000 [0xEB, 0xA8] |>.setReg .a 0x01 |>.setReg .b 0x02))).map
    (fun t => (t.reg .a, t.reg .b, t.flags.jf, t.pc)) =
    some (0x02, 0x01, true, 0x1002) := by
  decide

theorem test_T41 : (after ((code 0x1000 [0xEB, 0x12] |>.setPair .de 0x1111 |>.setPair .hl 0x2222))).map
    (fun t => (t.pair .de, t.pair .hl, t.flags.jf, t.pc)) =
    some (0x2222, 0x1111, true, 0x1002) := by
  decide

theorem test_T42 : (after ((code 0x1000 [0xE3, 0xA8] |>.setPair .hl 0x0200 |>.place 0x0200 [0x55] |>.setReg .a 0xAA))).map
    (fun t => (t.reg .a, t.peek 0x0200, t.flags.jf, t.pc)) =
    some (0x55, 0xAA, true, 0x1002) := by
  decide

theorem test_T44 : (after ({ (code 0x1000 [0xE8, 0x07] |>.setPair .wa 0xABCD) with
      sp := 0x0001 })).map
    (fun t => (t.sp, t.peek 0x0000, t.peek 0xFFFF, t.pc)) =
    some (0xFFFF, 0xAB, 0xCD, 0x1002) := by
  decide

theorem test_T46 : (after ({ (code 0x1000 [0xE8, 0x06] |>.place 0xFFFF [0xCD] |>.place 0x0000 [0xAB]) with
      sp := 0xFFFF })).map
    (fun t => (t.pair .wa, t.sp, t.pc)) =
    some (0xABCD, 0x0001, 0x1002) := by
  decide

theorem test_T47 : (after ({ code 0x1000 [0x07] with
      sp := 0x0100, flags := { jf := true, zf := false, cf := true, hf := false } })).map
    (fun t => (t.sp, t.peek 0x00FF, t.flags, t.pc)) =
    some (0x00FF, 0xA0, { jf := true, zf := false, cf := true, hf := false }, 0x1001) := by
  decide

theorem test_T48 : (after ({ (code 0x1000 [0x06] |>.place 0x00FF [0x50]) with
      sp := 0x00FF })).map
    (fun t => (t.sp, t.flags, t.pc)) =
    some (0x0100, { jf := false, zf := true, cf := false, hf := true }, 0x1001) := by
  decide

theorem test_A1 : (after ({ (code 0x1000 [0x70, 0x00] |>.setReg .a 0x0F) with
      flags := { jf := false, zf := false, cf := true, hf := false } })).map
    (fun t => (t.reg .a, t.flags, t.pc)) =
    some (0x10, { jf := false, zf := false, cf := false, hf := true }, 0x1002) := by
  decide

theorem test_A3 : (after ((code 0x1000 [0x71, 0x80] |>.setReg .a 0x80))).map
    (fun t => (t.reg .a, t.flags, t.pc)) =
    some (0x00, { jf := true, zf := true, cf := true, hf := false }, 0x1002) := by
  decide

theorem test_A4 : (after ({ (code 0x1000 [0x72, 0x0F] |>.setReg .a 0x10) with
      flags := { jf := false, zf := false, cf := true, hf := false } })).map
    (fun t => (t.reg .a, t.flags, t.pc)) =
    some (0x00, { jf := false, zf := true, cf := false, hf := true }, 0x1002) := by
  decide

theorem test_A5 : (after ((code 0x1000 [0x73, 0x01] |>.setReg .a 0x00))).map
    (fun t => (t.reg .a, t.flags, t.pc)) =
    some (0xFF, { jf := true, zf := false, cf := true, hf := true }, 0x1002) := by
  decide

theorem test_A6 : (after ({ (code 0x1000 [0x74, 0x0F] |>.setReg .a 0xF0) with
      flags := { jf := false, zf := false, cf := true, hf := true } })).map
    (fun t => (t.reg .a, t.flags, t.pc)) =
    some (0x00, { jf := true, zf := true, cf := true, hf := true }, 0x1002) := by
  decide

theorem test_A10 : (after ((code 0x1000 [0x77, 0x42] |>.setReg .a 0x41))).map
    (fun t => (t.flags, t.pc)) =
    some ({ jf := false, zf := false, cf := true, hf := true }, 0x1002) := by
  decide

theorem test_A14 : (after ((code 0x1000 [0xE1, 0x79] |>.setReg .a 0x02 |>.place 0x1004 [0x03]))).map
    (fun t => (t.reg .a, t.flags, t.pc)) =
    some (0x05, { jf := false, zf := false, cf := false, hf := false }, 0x1002) := by
  decide

theorem test_A21 : (after ((code 0x1000 [0xE2, 0x63] |>.setPair .de 0x0300 |>.setPair .hl 0x0400 |>.place 0x0300 [0x05] |>.place 0x0400 [0x02]))).map
    (fun t => (t.peek 0x0300, t.flags, t.pc)) =
    some (0x03, { jf := false, zf := false, cf := false, hf := false }, 0x1002) := by
  decide

theorem test_A22 : (after ((code 0x1000 [0xE6, 0x63] |>.setPair .hl 0x0200 |>.place 0x0200 [0x05] |>.place 0x0201 [0x01]))).map
    (fun t => (t.reg .l, t.peek 0x0200, t.flags, t.pc)) =
    some (0x01, 0x04, { jf := false, zf := false, cf := false, hf := false }, 0x1002) := by
  decide

theorem test_A23 : (after ((code 0x1000 [0xE6, 0x2F, 0x20] |>.setPair .hl 0x0200 |>.place 0x0200 [0x10]))).map
    (fun t => (t.reg .l, t.flags, t.pc)) =
    some (0x01, { jf := false, zf := false, cf := true, hf := false }, 0x1003) := by
  decide

theorem test_A25 : (after ((code 0x1000 [0xE9, 0x31] |>.setPair .wa 0x000F |>.setPair .bc 0x0001))).map
    (fun t => (t.reg .a, t.flags, t.pc)) =
    some (0x10, { jf := false, zf := false, cf := false, hf := true }, 0x1002) := by
  decide

theorem test_A26 : (after ((code 0x1000 [0xE9, 0x31] |>.setPair .wa 0x0F00 |>.setPair .bc 0x0100))).map
    (fun t => (t.reg .w, t.flags, t.pc)) =
    some (0x10, { jf := false, zf := false, cf := false, hf := false }, 0x1002) := by
  decide

theorem test_A27 : (after ((code 0x1000 [0xEB, 0x3B, 0x01, 0x00] |>.setPair .hl 0x1000))).map
    (fun t => (t.pair .hl, t.flags, t.pc)) =
    some (0x0FFF, { jf := false, zf := false, cf := false, hf := true }, 0x1004) := by
  decide

theorem test_A31 : (after ((code 0x1000 [0x6B] |>.setReg .b 0x00))).map
    (fun t => (t.reg .b, t.flags.jf, t.flags.zf, t.pc)) =
    some (0xFF, true, false, 0x1001) := by
  decide

theorem test_A38 : (after ((code 0x1000 [0xE6, 0x20] |>.setPair .hl 0x0200 |>.place 0x0200 [0x09]))).map
    (fun t => ((t.reg .l, t.peek 0x0200, t.flags.jf), (t.flags.zf, t.pc))) =
    some ((0x01, 0x0A, false), (false, 0x1002)) := by
  decide

theorem test_A41 : (after ((code 0x1000 [0xE7, 0x28] |>.setPair .hl 0x0201 |>.place 0x0200 [0x05]))).map
    (fun t => ((t.reg .l, t.peek 0x0200, t.flags.jf), (t.flags.zf, t.pc))) =
    some ((0x00, 0x04, false), (false, 0x1002)) := by
  decide

theorem test_A43 : (after ((code 0x1000 [0x02] |>.setReg .w 0xFF |>.setReg .a 0xFF))).map
    (fun t => (t.pair .wa, t.flags.jf, t.flags.zf, t.pc)) =
    some (0xFE01, false, false, 0x1001) := by
  decide

theorem test_A44 : (after ((code 0x1000 [0x02] |>.setReg .w 0x01 |>.setReg .a 0xFF))).map
    (fun t => (t.reg .w, t.flags.jf, t.flags.zf, t.pc)) =
    some (0x00, true, true, 0x1001) := by
  decide

theorem test_A46 : (after ((code 0x1000 [0x03] |>.setPair .wa 0x1234 |>.setReg .c 0x56))).map
    (fun t => ((t.pair .wa, t.flags.jf, t.flags.zf), (t.flags.cf, t.pc))) =
    some ((0x1036, false, false), (false, 0x1001)) := by
  decide

theorem test_A47 : (after ((code 0x1000 [0x03] |>.setPair .wa 0x1234 |>.setReg .c 0x00))).map
    (fun t => (t.flags.jf, t.flags.cf, t.pc)) =
    some (true, true, 0x1001) := by
  decide

theorem test_A49 : (after ((code 0x1000 [0x03] |>.setPair .wa 0x00FF |>.setReg .c 0x01))).map
    (fun t => (t.flags.jf, t.flags.zf, t.flags.cf, t.pc)) =
    some (false, false, false, 0x1001) := by
  decide

theorem test_A51 : (after ((code 0x1000 [0xE9, 0x03] |>.setPair .bc 0x0105))).map
    (fun t => ((t.reg .c, t.flags.jf, t.flags.zf), (t.flags.cf, t.pc))) =
    some ((0x34, false, false), (false, 0x1002)) := by
  decide

theorem test_A53 : (after ({ (code 0x1000 [0x0A] |>.setReg .a 0x7D) with
      flags := { jf := false, zf := false, cf := false, hf := false } })).map
    (fun t => (t.reg .a, t.flags, t.pc)) =
    some (0x83, { jf := false, zf := false, cf := false, hf := true }, 0x1001) := by
  decide

theorem test_A54 : (after ({ (code 0x1000 [0x0A] |>.setReg .a 0x9A) with
      flags := { jf := false, zf := false, cf := false, hf := false } })).map
    (fun t => (t.reg .a, t.flags, t.pc)) =
    some (0x00, { jf := true, zf := true, cf := true, hf := true }, 0x1001) := by
  decide

theorem test_A55 : (after ({ (code 0x1000 [0x0A] |>.setReg .a 0x00) with
      flags := { jf := false, zf := false, cf := true, hf := true } })).map
    (fun t => (t.reg .a, t.flags, t.pc)) =
    some (0x66, { jf := true, zf := false, cf := true, hf := false }, 0x1001) := by
  decide

theorem test_A58 : (after ({ (code 0x1000 [0x0B] |>.setReg .a 0x0F) with
      flags := { jf := false, zf := false, cf := false, hf := true } })).map
    (fun t => (t.reg .a, t.flags, t.pc)) =
    some (0x09, { jf := false, zf := false, cf := false, hf := false }, 0x1001) := by
  decide

theorem test_A59 : (after ({ (code 0x1000 [0x0B] |>.setReg .a 0xFF) with
      flags := { jf := false, zf := false, cf := true, hf := true } })).map
    (fun t => (t.reg .a, t.flags, t.pc)) =
    some (0x99, { jf := true, zf := false, cf := true, hf := false }, 0x1001) := by
  decide

theorem test_A61 : (after ((code 0x1000 [0x1C] |>.setReg .a 0x81))).map
    (fun t => ((t.reg .a, t.flags.jf, t.flags.zf), (t.flags.cf, t.pc))) =
    some ((0x02, true, false), (true, 0x1001)) := by
  decide

theorem test_A65 : (after ({ (code 0x1000 [0x1E] |>.setReg .a 0x81) with
      flags := { jf := false, zf := false, cf := false, hf := false } })).map
    (fun t => ((t.reg .a, t.flags.jf, t.flags.zf), (t.flags.cf, t.pc))) =
    some ((0x03, true, false), (true, 0x1001)) := by
  decide

theorem test_A67 : (after ({ (code 0x1000 [0x1E] |>.setReg .a 0x00) with
      flags := { jf := false, zf := false, cf := true, hf := false }, params := { Params.default with rotateThroughCarry := true } })).map
    (fun t => ((t.reg .a, t.flags.jf, t.flags.zf), (t.flags.cf, t.pc))) =
    some ((0x01, false, false), (false, 0x1001)) := by
  decide

theorem test_A68 : (after ({ (code 0x1000 [0x1F] |>.setReg .a 0x01) with
      flags := { jf := false, zf := false, cf := false, hf := false } })).map
    (fun t => ((t.reg .a, t.flags.jf, t.flags.zf), (t.flags.cf, t.pc))) =
    some ((0x80, true, false), (true, 0x1001)) := by
  decide

theorem test_A74 : (after ((code 0x1000 [0x01] |>.setReg .a 0x12))).map
    (fun t => (t.reg .a, t.flags.jf, t.flags.zf, t.pc)) =
    some (0x21, true, false, 0x1001) := by
  decide

theorem test_A77 : (after ((code 0x1000 [0xE3, 0x08] |>.setReg .a 0x12 |>.setPair .hl 0x0200 |>.place 0x0200 [0x34]))).map
    (fun t => ((t.reg .a, t.peek 0x0200, t.flags.jf), (t.flags.zf, t.pc))) =
    some ((0x13, 0x42, true), (false, 0x1002)) := by
  decide

theorem test_A78 : (after ((code 0x1000 [0xE3, 0x09] |>.setReg .a 0x12 |>.setPair .hl 0x0200 |>.place 0x0200 [0x34]))).map
    (fun t => ((t.reg .a, t.peek 0x0200, t.flags.jf), (t.flags.zf, t.pc))) =
    some ((0x14, 0x23, true), (false, 0x1002)) := by
  decide

theorem test_B5 : (after ((code 0x1000 [0x43, 0x30] |>.place 0x0030 [0x00]))).map
    (fun t => (t.peek 0x0030, t.flags.jf, t.flags.zf, t.pc)) =
    some (0x08, true, true, 0x1002) := by
  decide

theorem test_B7 : (after ((code 0x1000 [0x4F, 0x30] |>.place 0x0030 [0xFF]))).map
    (fun t => (t.peek 0x0030, t.flags.jf, t.flags.zf, t.pc)) =
    some (0x7F, false, false, 0x1002) := by
  decide

theorem test_B10 : (after ((code 0x1000 [0xE6, 0x40] |>.setPair .hl 0x0200 |>.place 0x0200 [0x00]))).map
    (fun t => ((t.reg .l, t.peek 0x0200, t.flags.jf), (t.flags.zf, t.pc))) =
    some ((0x01, 0x01, true), (true, 0x1002)) := by
  decide

theorem test_B15 : (after ({ (code 0x1000 [0xE0, 0x40, 0xCF] |>.place 0x0040 [0x00]) with
      flags := { jf := false, zf := false, cf := true, hf := false } })).map
    (fun t => (t.peek 0x0040, t.flags.jf, t.flags.cf, t.pc)) =
    some (0x80, true, true, 0x1003) := by
  decide

theorem test_B16 : (after ({ (code 0x1000 [0xE0, 0x40, 0xD0] |>.place 0x0040 [0x01]) with
      flags := { jf := false, zf := false, cf := true, hf := false } })).map
    (fun t => (t.flags.jf, t.flags.cf, t.pc)) =
    some (true, false, 0x1003) := by
  decide

theorem test_B20 : (after ((code 0x1000 [0xEA, 0xC1] |>.setReg .c 0x00))).map
    (fun t => (t.reg .c, t.flags.jf, t.flags.zf, t.pc)) =
    some (0x02, true, true, 0x1002) := by
  decide

theorem test_B25 : (after ((code 0x1000 [0xE8, 0x83] |>.setPair .hl 0x0200 |>.setReg .a 0x0B |>.place 0x0200 [0x00]))).map
    (fun t => (t.peek 0x0200, t.flags.jf, t.flags.zf, t.pc)) =
    some (0x08, true, true, 0x1002) := by
  decide

theorem test_B29 : (after ((code 0x1000 [0xEC, 0x9E] |>.setPair .de 0x0300 |>.place 0x0300 [0x01]))).map
    (fun t => (t.flags.jf, t.flags.cf, t.pc)) =
    some (false, true, 0x1002) := by
  decide

theorem test_C2 : (after ({ code 0x1000 [0x85] with
      flags := { jf := true, zf := false, cf := false, hf := false } })).map
    (fun t => (t.flags.jf, t.pc)) =
    some (true, 0x1007) := by
  decide

theorem test_C4 : (after ({ code 0x1000 [0x9E] with
      flags := { jf := true, zf := false, cf := false, hf := false } })).map
    (fun t => (t.flags.jf, t.pc)) =
    some (true, 0x1000) := by
  decide

theorem test_C5 : (after ({ code 0x1000 [0xB0] with
      flags := { jf := false, zf := false, cf := false, hf := false } })).map
    (fun t => (t.flags.jf, t.pc)) =
    some (false, 0x0FF2) := by
  decide

theorem test_C17 : (after ({ code 0x1000 [0xD4, 0x10] with
      flags := { jf := false, zf := false, cf := false, hf := false } })).map
    (fun t => (t.flags.zf, t.flags.cf, t.pc)) =
    some (false, false, 0x1002) := by
  decide

theorem test_C23 : (after ({ code 0x1007 [0xD1, 0xFB] with
      flags := { jf := false, zf := false, cf := false, hf := false } })).map
    (fun t => (t.flags.zf, t.pc)) =
    some (false, 0x1004) := by
  decide

theorem test_C25 : (after (code 0x1000 [0xFB, 0x80])).map
    (fun t => (t.pc)) =
    some (0x0F82) := by
  decide

theorem test_C30 : (after ((code 0x1000 [0xE6, 0xFE] |>.setPair .hl 0xFFFF |>.place 0xFFFF [0x00] |>.place 0x0000 [0x40]))).map
    (fun t => (t.pair .hl, t.pc)) =
    some (0x0000, 0x4000) := by
  decide

theorem test_C32 : (after ({ code 0x1000 [0xFF, 0xFC, 0x00, 0x30] with
      sp := 0x0001 })).map
    (fun t => (t.sp, t.peek 0x0000, t.peek 0xFFFF, t.pc)) =
    some (0xFFFF, 0x10, 0x04, 0x3000) := by
  decide

theorem test_C35 : (after ({ (code 0x1000 [0xE3, 0xFC] |>.setPair .hl 0x00FE |>.place 0x00FE [0x00, 0x30]) with
      sp := 0x0100 })).map
    (fun t => (t.sp, [t.peek 0x00FE, t.peek 0x00FF], t.pc)) =
    some (0x00FE, [0x02, 0x10], 0x3000) := by
  decide

theorem test_C37 : (after ({ (code 0x1000 [0xCF] |>.place 0xFFDE [0x00, 0x71]) with
      sp := 0x0100 })).map
    (fun t => (t.sp, [t.peek 0x00FE, t.peek 0x00FF], t.pc)) =
    some (0x00FE, [0x01, 0x10], 0x7100) := by
  decide

theorem test_C38 : (after ({ code 0x1000 [0xFF, 0xFD, 0x20] with
      sp := 0x0100 })).map
    (fun t => (t.sp, [t.peek 0x00FE, t.peek 0x00FF], t.pc)) =
    some (0x00FE, [0x03, 0x10], 0xFF20) := by
  decide

theorem test_C41 : (after ({ (code 0x1000 [0x04] |>.place 0x1FFD [0xA0, 0x00, 0x10]) with
      sp := 0x1FFD, imf := false })).map
    (fun t => (t.sp, t.imf, t.flags, t.pc)) =
    some (0x2000, true, { jf := true, zf := false, cf := true, hf := false }, 0x1000) := by
  decide

theorem test_C42 : (after ({ (code 0x1000 [0xE8, 0x04] |>.place 0x1FFD [0xA0, 0x00, 0x10]) with
      sp := 0x1FFD, imf := false })).map
    (fun t => (t.sp, t.flags, t.pc)) =
    some (0x2000, { jf := true, zf := false, cf := true, hf := false }, 0x1000) := by
  decide

theorem test_C43 : (after ({ (code 0x1000 [0xFF, 0xFF] |>.place 0xFFFC [0x00, 0x80]) with
      sp := 0x2000, imf := true, flags := { jf := true, zf := false, cf := true, hf := false } })).map
    (fun t => ((t.sp, t.imf, [t.peek 0x1FFD, t.peek 0x1FFE, t.peek 0x1FFF]), (t.flags, t.pc))) =
    some ((0x1FFD, false, [0xA0, 0x02, 0x10]), ({ jf := false, zf := false, cf := true, hf := false }, 0x8000)) := by
  decide

theorem test_C46 : (after ({ code 0x1000 [0x0F, 0x31] with
      rbs := 0 })).map
    (fun t => (t.rbs, t.pc)) =
    some (1, 0x1002) := by
  decide

theorem test_E11 : (after (code 0x1000 [0xFF, 0xFB, 0x34, 0x12])).map
    (fun t => (t.pc, t.events)) =
    some (0x1002, [.illegal [0xFF, 0xFB]]) := by
  decide

theorem test_E14 : (after ((code 0x1000 [0xE6, 0x00] |>.setPair .hl 0x0200))).map
    (fun t => (t.pc, t.events, t.pair .hl)) =
    some (0x1002, [.illegal [0xE6, 0x00]], 0x0200) := by
  decide

theorem test_E15 : (after (code 0x1000 [0xF4, 0x05, 0x00])).map
    (fun t => (t.pc, t.events)) =
    some (0x1003, [.illegal [0xF4, 0x05, 0x00]]) := by
  decide

theorem test_E20 : (after ({ (code 0x1000 [0x00] |>.place 0xFFFA [0x00, 0x90]) with
      sp := 0x2000, flags := { jf := true, zf := false, cf := true, hf := false }, inputs := { Inputs.quiet with nmi := true } })).map
    (fun t => ((t.sp, [t.peek 0x1FFD, t.peek 0x1FFE, t.peek 0x1FFF], t.flags), (t.pc, t.events))) =
    some ((0x1FFD, [0xA0, 0x00, 0x10], { jf := false, zf := false, cf := true, hf := false }), (0x9000, [.acceptedNmi])) := by
  decide

theorem test_E21 : (after ({ (code 0x1234 [0x00] |>.place 0xFFF4 [0x00, 0x91]) with
      imf := true, sp := 0x0200, flags := { jf := false, zf := true, cf := false, hf := false }, inputs := { Inputs.quiet with irq := [false, false, true] } })).map
    (fun t => ((t.sp, t.imf, [t.peek 0x01FD, t.peek 0x01FE, t.peek 0x01FF]), (t.pc, t.ack))) =
    some ((0x01FD, false, [0x40, 0x34, 0x12]), (0x9100, some 2)) := by
  decide

theorem test_E22 : (after ({ code 0x1000 [0x00] with
      imf := false, inputs := { Inputs.quiet with irq := [false, false, true] } })).map
    (fun t => (t.pc)) =
    some (0x1001) := by
  decide

theorem test_E23 : (after ({ (code 0x1000 [0x00] |>.place 0xFFF6 [0x00, 0x92]) with
      imf := true, sp := 0x0200, flags := { jf := false, zf := false, cf := false, hf := false }, inputs := { Inputs.quiet with irq := [false, true, false, true] } })).map
    (fun t => ((t.sp, t.imf, [t.peek 0x01FD, t.peek 0x01FE, t.peek 0x01FF]), (t.pc, t.ack))) =
    some ((0x01FD, false, [0x00, 0x00, 0x10]), (0x9200, some 1)) := by
  decide

theorem test_E24 : (after ({ (code 0x1000 [0x00] |>.place 0xFFFA [0x00, 0x90]) with
      imf := true, sp := 0x0200, flags := { jf := false, zf := false, cf := false, hf := false }, inputs := { Inputs.quiet with irq := [true], nmi := true } })).map
    (fun t => ((t.sp, t.imf, [t.peek 0x01FD, t.peek 0x01FE, t.peek 0x01FF]), (t.flags, t.pc, t.events))) =
    some ((0x01FD, false, [0x00, 0x00, 0x10]), ({ jf := false, zf := false, cf := false, hf := false }, 0x9000, [.acceptedNmi])) := by
  decide

theorem test_E25 : (after ({ code 0x1000 [0x00] with
      nmil := true, inputs := { Inputs.quiet with nmi := true } })).map
    (fun t => (t.pc)) =
    some (0x1001) := by
  decide

theorem test_E27 : (after ({ (code 0x1000 [0x00] |>.place 0xFFFE [0x00, 0x10]) with
      rbs := 3, imf := true, inputs := { Inputs.quiet with nmi := false, reset := true } })).map
    (fun t => (t.rbs, t.imf, t.pc)) =
    some (0, false, 0x1001) := by
  decide

theorem test_E28 : (after ({ (code 0x1000 [0x00] |>.place 0xFFFE [0x00, 0x10]) with
      inputs := { Inputs.quiet with nmi := true, reset := true } })).map
    (fun t => (t.pc)) =
    some (0x1001) := by
  decide

/-! ## Witnesses: states and operands that meet the hypotheses of the statements -/

/-- A machine with plain memory and the default parameters, the stack at the bottom of memory, so that a push wraps. -/
def plainState : State := { (code 0x1000 [0xE6, 0x58] |>.setPair .hl 0xFFFF |>.place 0xFFFF [0x5A, 0x12]) with sp := 0x0001 }

/-- The same with a device, the bank storage in memory across the top of the address space, and IMF mirrored. -/
def aliasState : State :=
  { plainState with
      io := [0x0080]
      params := { Params.default with bankAlias := some 0xFFF0, imfAlias := some (0x003A, 7) } }

theorem witness_StackPrimitives : plainState.Plain := by decide
theorem witness_LoadByte : plainState.Plain := by decide
theorem witness_StoreByte : plainState.Plain := by decide
theorem witness_MoveByte : plainState.Plain := by decide
theorem witness_LoadWord : plainState.Plain := by decide
theorem witness_StoreWord : plainState.Plain := by decide
theorem witness_Exchange : plainState.Plain := by decide
theorem witness_PushPopPair : plainState.Plain := by decide
theorem witness_PushPopPsw : plainState.Plain := by decide
theorem witness_AluMemoryOperand : plainState.Plain := by decide
theorem witness_AluMemoryResult : plainState.Plain := by decide
theorem witness_IncDecMemory : plainState.Plain := by decide
theorem witness_NibbleOperations : plainState.Plain := by decide
theorem witness_BitDirect : plainState.Plain := by decide
theorem witness_BitMemoryWrite : plainState.Plain := by decide
theorem witness_BitMemoryRead : plainState.Plain := by decide
theorem witness_BitPointer : plainState.Plain := by decide
theorem witness_Jumps : plainState.Plain := by decide
theorem witness_Calls : plainState.Plain := by decide
theorem witness_Returns : plainState.Plain := by decide
theorem witness_SoftwareInterrupt : plainState.Plain := by decide
theorem witness_SaveAndRestore : plainState.Plain := by decide

theorem witness_DecodeOfEncode :
    (Instr.setPpG .hl .a).wellFormed = true ∧ (Instr.ldDstN (.hlDisp 0x80) 0xFF).wellFormed = true := by decide

theorem witness_EncodeOfDecode :
    decode [0xF4, 0x80, 0x2C, 0xFF, 0x00] = .instr (.ldDstN (.hlDisp 0x80) 0xFF) [0x00] := by decide

/-- Each clause at a boundary of its range: the hypothesis holds there, and its neighbour is outside. -/
theorem witness_IllegalEncodings :
    ((0x38 : Byte) ≤ 0x38 ∧ (0x38 : Byte) ≤ 0x3F) ∧ ((0xFC : Byte) ≤ 0xFE ∧ (0xFE : Byte) ≤ 0xFE) ∧
    decode [0xE7, 0x0A] = .illegal .sourceOp ∧ decode [0xE0, 0xFF, 0xFF] = .illegal .sourceOp ∧
    decode [0xF0, 0x00, 0x14] = .illegal .destOp ∧ decode [0xF7, 0x58] = .illegal .destOp ∧
    decode [0xE8, 0x00] = .illegal .registerOp ∧ decode [0xEF, 0xFD] = .illegal .registerOp ∧
    (4 ≤ Reg.code .e ∧ ¬ 4 ≤ Reg.code .b) ∧ decode [0xEC, 0xFE] = .illegal .pairOperand ∧
    (Reg.w ≠ .a ∧ decode [0xE9, 0x04] = .illegal .retnOperand) ∧
    decode [0xFF, 0xF9] = .illegal .controlOp ∧ decode [0xFF, 0xFB] = .illegal .controlOp ∧
    (1 ≤ (Mode.direct 0xFF).ext.length ∧ decode [0xE0, 0xFF] = .more) ∧ (0 ≤ Mode.hl.ext.length ∧ decode [0xF3] = .more) := by
  decide

theorem witness_DecodeNeedsAtMostFourBytes :
    4 ≤ [0xF4, 0x80, 0x2C, (0xFF : Byte)].length ∧ decode [0x05] = .instr .ret [] := by decide

theorem witness_BusAccesses :
    plainState.served 0x0080 = false ∧ aliasState.served 0x0080 = true ∧ aliasState.served 0x0081 = false ∧
    (0x0081 : Word) ≠ 0x0080 := by decide

theorem witness_BankAlias :
    plainState.params.bankAlias = none ∧ aliasState.params.bankAlias = some 0xFFF0 ∧
    bankAddr 0xFFF0 2 .a = 0x0000 ∧ bankAddr 0xFFF0 1 .h = 0xFFFF ∧ ¬ ((1 : BitVec 4) = 2 ∧ Reg.h = .a) := by decide

theorem witness_ImfAlias :
    plainState.params.imfAlias = none ∧ aliasState.params.imfAlias = some (0x003A, 7) ∧ (0x003B : Word) ≠ 0x003A := by decide

/-- The largest quotient that fits a byte, the smallest that does not, and a division by zero (R165). -/
theorem witness_Divide :
    ((1 : Nat) ≠ 0 ∧ 0x00FF / 1 ≤ 0xFF) ∧ 0xFF < 0x0100 / 1 ∧
    (((plainState.setPair .wa 0x00FF).setReg .c 1).pair .wa).toNat / (((plainState.setPair .wa 0x00FF).setReg .c 1).reg .c).toNat = 0xFF ∧
    (((plainState.setPair .wa 0x0100).setReg .c 1).pair .wa).toNat / (((plainState.setPair .wa 0x0100).setReg .c 1).reg .c).toNat = 0x100 ∧
    ((plainState.setReg .c 0).reg .c).toNat = 0 := by decide

theorem witness_DecimalArithmetic : isBcd 0x00 = true ∧ isBcd 0x99 = true ∧ isBcd 0x9A = false := by decide

/-- A four-byte instruction across the end of memory, once with IMF clear and a line asserted, once with IMF set and
every line low. -/
def fetchState (e : Bool) : State :=
  { code 0xFFFE [0xFF, 0xFC, 0x0C, 0x10] with imf := e, inputs := { Inputs.quiet with irq := [false, !e] } }

theorem witness_StepRunsDecodedInstruction :
    (Instr.callMn 0x100C).wellFormed = true ∧ encode (.callMn 0x100C) = [0xFF, 0xFC, 0x0C, 0x10] ∧
    (∀ e : Bool, (fetchState e).io = [] ∧ (fetchState e).boundary.nmip = false ∧
      ((fetchState e).boundary.imf = false ∨ (fetchState e).inputs.calm (fetchState e).params.vecIrq.length) ∧
      (fetchState e).boundary.pc = 0xFFFE ∧ (fetchState e).boundary.peek 0xFFFE = 0xFF ∧
      (fetchState e).boundary.peek 0xFFFF = 0xFC ∧ (fetchState e).boundary.peek 0x0000 = 0x0C ∧
      (fetchState e).boundary.peek 0x0001 = 0x10) := by decide

theorem witness_IllegalStep :
    decode [0xF4, 0x05, 0x00] = .illegal .destOp ∧ decode [] = .more ∧ decode [0xF4] = .more ∧ decode [0xF4, 0x05] = .more ∧
    (let s := code 0xFFFE [0xF4, 0x05, 0x00]
     s.io = [] ∧ s.boundary.nmip = false ∧ s.boundary.imf = false ∧ s.boundary.pc = 0xFFFE ∧
      s.boundary.peek 0xFFFE = 0xF4 ∧ s.boundary.peek 0xFFFF = 0x05 ∧ s.boundary.peek 0x0000 = 0x00) := by decide

theorem witness_AcceptNonMaskable :
    let s := { plainState with inputs := { Inputs.quiet with nmi := true, irq := [true] } }
    s.Plain ∧ s.boundary.nmip = true := by decide

/-- The last line alone, and the first line with others. -/
theorem witness_AcceptMaskable :
    (let s := { plainState with imf := true, inputs := { Inputs.quiet with irq := List.replicate 11 false ++ [true] } }
     11 < s.params.vecIrq.length ∧ s.Plain ∧ s.boundary.nmip = false ∧ s.boundary.imf = true ∧
      s.inputs.irq.getD 11 false = true ∧ s.inputs.calm 11) ∧
    (let s := { plainState with imf := true, inputs := { Inputs.quiet with irq := [true, true] } }
     0 < s.params.vecIrq.length ∧ s.Plain ∧ s.boundary.nmip = false ∧ s.boundary.imf = true ∧
      s.inputs.irq.getD 0 false = true ∧ s.inputs.calm 0) := by decide

theorem witness_BoundarySampling :
    ({ plainState with inputs := { Inputs.quiet with imfWrite := some 0x01, nmi := true } } : State).inputs.reset = false := by
  decide

theorem witness_ResetSequence :
    let s := { plainState with inputs := { Inputs.quiet with reset := true, nmi := true } }
    s.io = [] ∧ s.inputs.reset = true ∧ s.inputs.imfWrite = none := by decide

theorem witness_StepKeepsMemoryCanonical :
    ((code 0x1000 [0x2C, 0x10, 0xFF]).mem.wf ∧
      (after (code 0x1000 [0x2C, 0x10, 0xFF])).map (fun t => t.mem.length) = some 4) ∧
    ∃ t, step (code 0x1000 [0x2C, 0x10, 0xFF]) = .next t := ⟨by decide, _, rfl⟩

theorem witness_BankIsolation :
    let s' := { plainState with bank := plainState.bank.set 15 { Bank.zero with a := 0x77 } }
    (plainState.params.bankAlias = none ∧ s' = { plainState with bank := s'.bank } ∧
      (∀ r ∈ [Reg.a, .w, .c, .b, .e, .d, .l, .h], s'.bankReg plainState.rbs r = plainState.bankReg plainState.rbs r) ∧
      s'.bankReg 15 .a ≠ plainState.bankReg 15 .a) ∧
    (∃ t, exec (.ldRbsN 0x0F) plainState = .next t) ∧ ∃ t, exec (.ldRbsN 0x0F) s' = .next t :=
  ⟨by decide, ⟨_, rfl⟩, _, rfl⟩

end Sys2Proof.Tests
end

section
/-! ## Decimal arithmetic and the state after reset (R13, R37, R131 to R134, R168, R171, R252) -/

namespace Sys2Proof.Machine

/-- The byte `v` holds the decimal digits `h` and `l`, the high one first (R13). -/
def HasDigits (v : Byte) (h l : Nat) : Prop := h < 10 ∧ l < 10 ∧ v.toNat = 16 * h + l

theorem hasDigits_of_isBcd {v : Byte} (hv : isBcd v = true) : HasDigits v (v.toNat / 16) (v.toNat % 16) := by
  simp only [isBcd, Bool.and_eq_true, decide_eq_true_eq] at hv
  exact ⟨hv.1, hv.2, (Nat.div_add_mod _ _).symm⟩

theorem HasDigits.isBcd {v : Byte} {h l : Nat} (hv : HasDigits v h l) : isBcd v = true := by
  obtain ⟨hh, hl, hn⟩ := hv
  simp only [Machine.isBcd, Bool.and_eq_true, decide_eq_true_eq]
  omega

theorem HasDigits.bcdValue {v : Byte} {h l : Nat} (hv : HasDigits v h l) : bcdValue v = 10 * h + l := by
  obtain ⟨-, hl, hn⟩ := hv
  unfold Machine.bcdValue
  omega

/-! ### What ADDC and SUBB leave for the adjustment, as numbers -/

theorem carryIn_eq_toNat (c : Bool) : carryIn c = c.toNat := by
  cases c <;> rfl

/-- ADDC: the sum, with CF worth 256. -/
theorem alu8_addc_toNat (f : Flags) (a b : Byte) :
    (alu8 .addc f a b).1.toNat + 256 * (alu8 .addc f a b).2.cf.toNat = a.toNat + b.toNat + f.cf.toNat := by
  have hcf := f.cf.toNat_le
  simp only [alu8, aluOf, addFlags, carryIn_eq_toNat, BitVec.toNat_ofNat]
  by_cases h : 2 ^ 8 ≤ a.toNat + b.toNat + f.cf.toNat <;>
    simp only [h, decide_true, decide_false, Bool.toNat_true, Bool.toNat_false] <;> omega

theorem alu8_addc_hf (f : Flags) (a b : Byte) :
    (alu8 .addc f a b).2.hf = true ↔ 16 ≤ a.toNat % 16 + b.toNat % 16 + f.cf.toNat := by
  simp only [alu8, aluOf, addFlags, nibble, carryIn_eq_toNat, decide_eq_true_iff]
  exact Nat.lt_iff_add_one_le

/-- SUBB: the difference, with CF the 256 that was borrowed. -/
theorem alu8_subb_toNat (f : Flags) (a b : Byte) :
    (alu8 .subb f a b).1.toNat + b.toNat + f.cf.toNat = a.toNat + 256 * (alu8 .subb f a b).2.cf.toNat := by
  have hcf := f.cf.toNat_le
  simp only [alu8, aluOf, subFlags, carryIn_eq_toNat, BitVec.toNat_sub, BitVec.toNat_ofNat]
  by_cases h : a.toNat < b.toNat + f.cf.toNat <;>
    simp only [h, decide_true, decide_false, Bool.toNat_true, Bool.toNat_false] <;> omega

theorem alu8_subb_hf (f : Flags) (a b : Byte) :
    (alu8 .subb f a b).2.hf = true ↔ a.toNat % 16 < b.toNat % 16 + f.cf.toNat := by
  simp only [alu8, aluOf, subFlags, nibble, carryIn_eq_toNat, decide_eq_true_iff]

/-! ### What DAA and DAS do, given which of the two digits they correct -/

theorem bcdCorrection_toNat {f : Flags} {v : Byte} {lo hi : Bool}
    (hlo : f.hf = true ∨ 9 < v.toNat % 16 ↔ lo = true) (hhi : f.cf = true ∨ 0x99 < v.toNat ↔ hi = true) :
    (bcdCorrection f v).toNat = 6 * lo.toNat + 96 * hi.toNat := by
  simp only [bcdCorrection, nibble, hlo, hhi]
  cases lo <;> cases hi <;> rfl

theorem bcdCarry_eq {f : Flags} {v : Byte} {hi : Bool} (hhi : f.cf = true ∨ 0x99 < v.toNat ↔ hi = true) :
    bcdCarry f v = hi := by
  rw [Bool.eq_iff_iff, ← hhi]
  simp [bcdCarry]

theorem daa_eq {f : Flags} {v : Byte} {lo hi : Bool}
    (hlo : f.hf = true ∨ 9 < v.toNat % 16 ↔ lo = true) (hhi : f.cf = true ∨ 0x99 < v.toNat ↔ hi = true) :
    (daa f v).1.toNat = (v.toNat + 6 * lo.toNat + 96 * hi.toNat) % 256 ∧ (daa f v).2.cf = hi := by
  refine ⟨?_, bcdCarry_eq hhi⟩
  simp [daa, bcdCorrection_toNat hlo hhi, Nat.add_assoc]

theorem das_eq {f : Flags} {v : Byte} {lo hi : Bool}
    (hlo : f.hf = true ∨ 9 < v.toNat % 16 ↔ lo = true) (hhi : f.cf = true ∨ 0x99 < v.toNat ↔ hi = true) :
    (das f v).1.toNat = (v.toNat + 256 - 6 * lo.toNat - 96 * hi.toNat) % 256 ∧ (das f v).2.cf = hi := by
  refine ⟨?_, bcdCarry_eq hhi⟩
  have := lo.toNat_le
  have := hi.toNat_le
  simp only [das, BitVec.toNat_sub, bcdCorrection_toNat hlo hhi]
  omega

/-! ### Digit by digit, as decimal arithmetic is done by hand -/

/-- One column of a decimal addition: the digit written down and the carry. -/
theorem exists_digit_carry {x : Nat} (hx : x < 20) : ∃ (d : Nat) (k : Bool), d < 10 ∧ d + 10 * k.toNat = x := by
  by_cases h : x < 10
  · exact ⟨x, false, h, rfl⟩
  · exact ⟨x - 10, true, by omega, by simp; omega⟩

/-- One column of a decimal subtraction: the digit written down and the borrow. -/
theorem exists_digit_borrow {x y : Nat} (hx : x < 10) (hy : y ≤ 10) :
    ∃ (d : Nat) (k : Bool), d < 10 ∧ d + y = x + 10 * k.toNat := by
  by_cases h : y ≤ x
  · exact ⟨x - y, false, by omega, by simp; omega⟩
  · exact ⟨x + 10 - y, true, by omega, by simp; omega⟩

/-- DAA after ADDC corrects exactly the digits that carry: the low digits add up to a digit and a carry `k`, the high
digits and `k` to a digit and the new CF. -/
theorem daa_addc_digits (f : Flags) {a b : Byte} {ah al bh bl : Nat} (ha : HasDigits a ah al) (hb : HasDigits b bh bl) :
    let r := alu8 .addc f a b
    let q := daa r.2 r.1
    ∃ (h l : Nat) (k : Bool), HasDigits q.1 h l ∧
      l + 10 * k.toNat = al + bl + f.cf.toNat ∧ h + 10 * q.2.cf.toNat = ah + bh + k.toNat := by
  intro r q
  obtain ⟨hah, hal, han⟩ := ha
  obtain ⟨hbh, hbl, hbn⟩ := hb
  have hc := f.cf.toNat_le
  obtain ⟨l, k, hl, hlk⟩ := exists_digit_carry (x := al + bl + f.cf.toNat) (by omega)
  have hk := k.toNat_le
  obtain ⟨h, k', hh, hhk⟩ := exists_digit_carry (x := ah + bh + k.toNat) (by omega)
  have hk' := k'.toNat_le
  have hr : r.1.toNat + 256 * r.2.cf.toNat = a.toNat + b.toNat + f.cf.toNat := alu8_addc_toNat f a b
  have hr' := r.1.isLt
  have hcf' := r.2.cf.toNat_le
  have hraw : r.1.toNat + 6 * k.toNat + 96 * k'.toNat + 256 * r.2.cf.toNat = 16 * h + l + 256 * k'.toNat := by omega
  have hlow : r.2.hf = true ∨ 9 < r.1.toNat % 16 ↔ k = true := by
    rw [alu8_addc_hf, ← Bool.toNat_eq_one]
    omega
  have hhigh : r.2.cf = true ∨ 0x99 < r.1.toNat ↔ k' = true := by
    rw [← Bool.toNat_eq_one, ← Bool.toNat_eq_one]
    omega
  obtain ⟨hq, hcf⟩ : q.1.toNat = (r.1.toNat + 6 * k.toNat + 96 * k'.toNat) % 256 ∧ q.2.cf = k' :=
    daa_eq hlow hhigh
  exact ⟨h, l, k, ⟨hh, hl, by omega⟩, hlk, hcf ▸ hhk⟩

/-- DAS after SUBB corrects exactly the digits that borrow: the low digits differ by a digit and a borrow `k`, the high
digits and `k` by a digit and the new CF. -/
theorem das_subb_digits (f : Flags) {a b : Byte} {ah al bh bl : Nat} (ha : HasDigits a ah al) (hb : HasDigits b bh bl) :
    let r := alu8 .subb f a b
    let q := das r.2 r.1
    ∃ (h l : Nat) (k : Bool), HasDigits q.1 h l ∧
      l + (bl + f.cf.toNat) = al + 10 * k.toNat ∧ h + (bh + k.toNat) = ah + 10 * q.2.cf.toNat := by
  intro r q
  obtain ⟨hah, hal, han⟩ := ha
  obtain ⟨hbh, hbl, hbn⟩ := hb
  have hc := f.cf.toNat_le
  obtain ⟨l, k, hl, hlk⟩ := exists_digit_borrow (y := bl + f.cf.toNat) hal (by omega)
  have hk := k.toNat_le
  obtain ⟨h, k', hh, hhk⟩ := exists_digit_borrow (y := bh + k.toNat) hah (by omega)
  have hk' := k'.toNat_le
  have hr : r.1.toNat + b.toNat + f.cf.toNat = a.toNat + 256 * r.2.cf.toNat := alu8_subb_toNat f a b
  have hr' := r.1.isLt
  have hcf' := r.2.cf.toNat_le
  have hborrow : r.2.cf.toNat = k'.toNat := by omega
  have hraw : r.1.toNat = 16 * h + l + 6 * k.toNat + 96 * k'.toNat := by omega
  have hlow : r.2.hf = true ∨ 9 < r.1.toNat % 16 ↔ k = true := by
    rw [alu8_subb_hf, ← Bool.toNat_eq_one]
    omega
  have hhigh : r.2.cf = true ∨ 0x99 < r.1.toNat ↔ k' = true := by
    rw [← Bool.toNat_eq_one, ← Bool.toNat_eq_one]
    omega
  obtain ⟨hq, hcf⟩ : q.1.toNat = (r.1.toNat + 256 - 6 * k.toNat - 96 * k'.toNat) % 256 ∧ q.2.cf = k' :=
    das_eq hlow hhigh
  exact ⟨h, l, k, ⟨hh, hl, by omega⟩, hlk, hcf ▸ hhk⟩

/-- Settles O35: the digits of the result are those of the addition and the subtraction by hand. -/
theorem decimalArithmetic : Obligations.DecimalArithmetic := by
  intro f a b ha hb
  have ha := hasDigits_of_isBcd ha
  have hb := hasDigits_of_isBcd hb
  constructor
  · obtain ⟨h, l, k, hq, hlow, hhigh⟩ := daa_addc_digits f ha hb
    refine ⟨hq.isBcd, ?_⟩
    rw [hq.bcdValue, ha.bcdValue, hb.bcdValue]
    omega
  · obtain ⟨h, l, k, hq, hlow, hhigh⟩ := das_subb_digits f ha hb
    refine ⟨hq.isBcd, ?_⟩
    rw [hq.bcdValue, ha.bcdValue, hb.bcdValue]
    omega

/-! ### The state after reset -/

/-- Nothing is in memory at reset, so the reset vector reads as the word 0x0000 (log 4, 5). -/
theorem State.reset_pc : State.reset.pc = vectorTarget State.reset State.reset.params.vecReset := by decide

/-- Settles O57: each field of `State.reset` by its definition, PC by the empty reset vector, memory by its canonical
form. -/
theorem resetState : Obligations.ResetState :=
  ⟨rfl, rfl, rfl, State.reset_pc, rfl, State.reset_mem_wf, rfl⟩

end Sys2Proof.Machine
end

section
/-! ## Pairs, the program status word and `BANK_ALIAS` (R23, R24, R28, R29) -/

namespace Sys2Proof.Machine

/-- Settles O6: the pair law, and the frame of the two register writes. -/
theorem registerPairs : Obligations.RegisterPairs := by
  intro s p v
  rw [← loByte_eq_extract, ← hiByte_eq_extract]
  exact ⟨rfl, s.pair_setPair_self p v, s.reg_setPair_lo p v, s.reg_setPair_hi p v, s.sameBut_setPair p v⟩

/-! ### The program status word -/

/-- The value of four bits over a nibble (R28). -/
theorem ofBool_append_toNat (j z c h : Bool) (l : BitVec 4) :
    (BitVec.ofBool j ++ BitVec.ofBool z ++ BitVec.ofBool c ++ BitVec.ofBool h ++ l : BitVec 8).toNat =
      128 * j.toNat + 64 * z.toNat + 32 * c.toNat + 16 * h.toNat + l.toNat := by
  revert j z c h l
  decide

/-- A byte is its four high bits over its low nibble. -/
theorem ofBool_getLsbD_append (v : Byte) :
    BitVec.ofBool (v.getLsbD 7) ++ BitVec.ofBool (v.getLsbD 6) ++ BitVec.ofBool (v.getLsbD 5) ++
      BitVec.ofBool (v.getLsbD 4) ++ (v.setWidth 4 : BitVec 4) = v := by
  revert v
  decide

theorem ofBool_getLsbD_append_zero (v : Byte) :
    BitVec.ofBool (v.getLsbD 7) ++ BitVec.ofBool (v.getLsbD 6) ++ BitVec.ofBool (v.getLsbD 5) ++
      BitVec.ofBool (v.getLsbD 4) ++ (0 : BitVec 4) = v &&& 0xF0 := by
  revert v
  decide

theorem State.getPsw_toNat (s : State) : s.getPsw.toNat =
    128 * s.flags.jf.toNat + 64 * s.flags.zf.toNat + 32 * s.flags.cf.toNat + 16 * s.flags.hf.toNat +
      (match s.params.pswLow with | .zero => 0 | .rbs => s.rbs.toNat) := by
  rw [State.getPsw, ofBool_append_toNat]
  cases s.params.pswLow <;> rfl

/-- A byte written to the PSW is read back, without its low nibble where that is not the bank selector (R28, R29). -/
theorem State.getPsw_setPsw (s : State) (v : Byte) :
    (s.setPsw v).getPsw = match s.params.pswLow with | .zero => v &&& 0xF0 | .rbs => v := by
  cases h : s.params.pswLow with
  | zero => simp only [State.getPsw, State.setPsw_params, State.setPsw_flags, h, ofBool_getLsbD_append_zero]
  | rbs =>
    simp only [State.getPsw, State.setPsw_params, State.setPsw_flags, State.setPsw_rbs, h, ofBool_getLsbD_append]

/-- Settles O7: the byte by its value, the write by `State.setPsw_eq`. -/
theorem programStatusWord : Obligations.ProgramStatusWord := by
  intro s v
  refine ⟨s.getPsw_toNat, ?_⟩
  rw [State.setPsw_eq, BitVec.ofNat_toNat]
  rfl

/-! ### Registers and memory (`BANK_ALIAS`) -/

/-- With `BANK_ALIAS = none` the registers are in `bank` alone (R23). -/
theorem State.bankReg_congr {s t : State} (hs : s.params.bankAlias = none) (hp : t.params = s.params)
    (hb : t.bank = s.bank) (n : BitVec 4) (r : Reg) : t.bankReg n r = s.bankReg n r := by
  simp only [State.bankReg, hp, hs, hb]

/-- With `BANK_ALIAS = base` a register is a byte of memory (R23). -/
theorem State.bankReg_eq_peek {s : State} {base : Word} (h : s.params.bankAlias = some base) (n : BitVec 4) (r : Reg) :
    s.bankReg n r = s.peek (bankAddr base n r) := by
  simp only [State.bankReg, h]

/-- No device serves a byte of the bank storage (log 14). -/
theorem State.served_bankAddr {s : State} {base : Word} (h : s.params.bankAlias = some base) (n : BitVec 4) (r : Reg) :
    s.served (bankAddr base n r) = false := by
  simp [State.served, bankByte_bankAddr s.params base n r h]

/-- With `BANK_ALIAS = base` a store to the byte of a register writes that register and no other (R23). -/
theorem State.bankReg_memWrite_bankAddr {s : State} {base : Word} (h : s.params.bankAlias = some base)
    (n k : BitVec 4) (r q : Reg) (v : Byte) :
    (s.memWrite (bankAddr base n r) v).bankReg k q = if k = n ∧ q = r then v else s.bankReg k q := by
  have ht : (s.memWrite (bankAddr base n r) v).params.bankAlias = some base := by simpa using h
  rw [State.bankReg_eq_peek ht, State.bankReg_eq_peek h, State.peek_memWrite, State.served_bankAddr h]
  by_cases hkq : k = n ∧ q = r
  · obtain ⟨rfl, rfl⟩ := hkq
    simp
  · rw [if_neg hkq, if_neg fun e => hkq (bankAddr_injective base k n q r e.1)]

/-- Settles O10: with `BANK_ALIAS = none` neither side reaches the other; with a base address both accesses are of one
cell, and no two registers share a cell. -/
theorem bankAlias : Obligations.BankAlias := by
  intro s n r v
  refine ⟨fun h a k q => ⟨?_, ?_, ?_, ?_⟩,
    fun base h => ⟨?_, ?_, ?_, fun k q hkq => ?_, ?_, ?_, fun a ha => ?_, fun k q hkq => ?_⟩⟩
  · exact State.bankReg_congr h (by simp) (by simp) k q
  · exact State.bankReg_congr h (by simp) (by simp) k q
  · simp [State.peek_setBankReg, h]
  · exact s.bankReg_setBankReg n k r q v
  · exact bankAddr_toNat base n r
  · exact State.bankReg_eq_peek h n r
  · rw [State.bankReg_memWrite_bankAddr h, if_pos ⟨rfl, rfl⟩]
  · rw [State.bankReg_memWrite_bankAddr h, if_neg hkq]
  · simp [State.peek_setBankReg, h]
  · simp [State.bankReg_setBankReg]
  · simp [State.peek_setBankReg, h, ha.symm]
  · rw [State.bankReg_setBankReg, if_neg hkq]

end Sys2Proof.Machine
end

section
/-! ## Save and restore (R29, R60, R230, R231, R244) -/

namespace Sys2Proof.Machine

/-- The frame with the bus accesses left unsaid. -/
theorem SameBut.withBus {s t : State} {regs : List Reg} {cells : List Word} {acc : List BusAccess}
    (h : SameBut s t regs cells acc) : SameBut { s with bus := t.bus } t regs cells [] :=
  { h with
    bankReg := h.bankReg
    peek := h.peek
    bus := (List.append_nil _).symm }

/-- The flags that a PSW pushed and popped brings back (R28, R29). -/
theorem flagsOfPsw_getPsw (s : State) : flagsOfPsw s.getPsw = s.flags := by
  simpa [State.setPsw_eq] using congrArg State.flags s.setPsw_getPsw

/-- The bank that a PSW pushed and popped brings back (R28, R29). -/
theorem State.bankAfterPsw_getPsw (s : State) : s.bankAfterPsw s.getPsw = s.rbs := by
  simpa [State.setPsw_eq] using congrArg State.rbs s.setPsw_getPsw

/-- A word pushed is the word popped (R60). -/
theorem State.Plain.pop16_push16 {s : State} (h : s.Plain) (v : Word) : (s.push16 v).pop16.1 = v := by
  have hp : (s.push16 v).Plain := (h.sameBut_push16 v).plain h
  have hlo : s.sp - 1 - 1 = s.sp - 2 := by bv_omega
  have hhi : s.sp - 2 + 1 = s.sp - 1 := by bv_omega
  have hne : s.sp - 1 ≠ s.sp - 2 := by bv_omega
  rw [hp.pop16, State.push16_sp, hlo, hhi, h.peek_push16, h.peek_push16, if_pos rfl, if_neg hne, if_pos rfl,
    joinBytes_loByte_hiByte]

theorem State.pop16_push16_sp (s : State) (v : Word) : (s.push16 v).pop16.2.sp = s.sp := by
  simp only [State.pop16_sp, State.push16_sp]
  bv_omega

/-- The return from an entry at once: all but IMF and the three bytes of the frame is as before the entry (R244). -/
theorem State.Plain.leave_enter_frame {s : State} (h : s.Plain) (v : Word) :
    SameBut { s with imf := false, bus := (s.enter v).leave.bus } (s.enter v).leave []
      [s.sp - 1, s.sp - 2, s.sp - 3] [] := by
  obtain ⟨hhi, hlo, hpsw, henter⟩ := h.enter_frame v
  have hpsw' : (s.enter v).peek (s.enter v).sp = s.getPsw := by rw [henter.sp]; exact hpsw
  have hlo' : (s.enter v).peek ((s.enter v).sp + 1) = loByte s.pc := by
    rw [henter.sp, ← hlo]; congr 1; dsimp only; bv_omega
  have hhi' : (s.enter v).peek ((s.enter v).sp + 2) = hiByte s.pc := by
    rw [henter.sp, ← hhi]; congr 1; dsimp only; bv_omega
  have hpc : hiByte s.pc ++ loByte s.pc = s.pc := joinBytes_loByte_hiByte s.pc
  have hsp : (s.enter v).sp + 3 = s.sp := by rw [henter.sp]; dsimp only; bv_omega
  have hrbs : (s.enter v).bankAfterPsw s.getPsw = s.rbs := by
    rw [← s.bankAfterPsw_getPsw]
    simp only [State.bankAfterPsw, henter.params, henter.rbs]
  have hleave := (henter.plain h).leave_frame
  rw [hpsw', hlo', hhi', hpc, hsp, flagsOfPsw_getPsw, hrbs] at hleave
  have hback := (((henter.jump s.pc).withSp s.sp).setFlags s.flags).withRbs s.rbs
  exact (hback.trans hleave).withBus

/-- Settles O50: each pop reads back the bytes that its push stored. -/
theorem saveAndRestore : Obligations.SaveAndRestore := by
  exact ⟨fun s v h => ⟨h.pop16_push16 v, s.pop16_push16_sp v⟩, fun s v => ⟨s.getPsw_setPsw v, s.setPsw_getPsw⟩,
    fun s v h => ⟨⟨_, rfl, h.leave_enter_frame v⟩, ⟨_, rfl, (h.leave_enter_frame v).withImf true⟩⟩⟩

end Sys2Proof.Machine
end

section
/-! ## Every step completes (R35, R72, R234) -/

namespace Sys2Proof.Machine

/-- `t` has the parameters, the inputs, the request latches and the reports of `s`: what no instruction touches. -/
structure KeepsSurroundings (s t : State) : Prop where
  params : t.params = s.params
  io : t.io = s.io
  inputs : t.inputs = s.inputs
  later : t.later = s.later
  start : t.start = s.start
  nmip : t.nmip = s.nmip
  nmil : t.nmil = s.nmil
  events : t.events = s.events
  ack : t.ack = s.ack

theorem KeepsSurroundings.refl (s : State) : KeepsSurroundings s s := by constructor <;> rfl

theorem State.branch_keepsSurroundings (s : State) (d : Word) : KeepsSurroundings s (s.branch d) := by
  constructor <;> rfl

/-- A conditional branch keeps the surroundings, taken or not. -/
theorem KeepsSurroundings.ite {s t u : State} (c : Bool) (ht : KeepsSurroundings s t) (hu : KeepsSurroundings s u) :
    KeepsSurroundings s (if c then t else u) := by
  cases c
  · exact hu
  · exact ht

/-- Every arm of `exec` answers a next state, made by shared operations that keep the surroundings (R234). -/
theorem exec_completes (i : Instr) (s : State) : ∃ t, exec i s = .next t ∧ KeepsSurroundings s t := by
  cases i with
  | jrsT d => exact ⟨_, rfl, .ite _ (s.branch_keepsSurroundings _) (.refl s)⟩
  | jrsF d => exact ⟨_, rfl, .ite _ (.refl s) (s.branch_keepsSurroundings _)⟩
  | jrCc cc d => exact ⟨_, rfl, .ite _ (s.branch_keepsSurroundings _) (.refl s)⟩
  | _ => exact ⟨_, rfl, by constructor <;> simp⟩

/-! ### The boundary and the choice -/

theorem State.applyReset_events (s : State) : s.applyReset.events = s.events := by
  unfold State.applyReset
  split <;> simp [State.resetSequence]

theorem State.applyImfWrite_events (s : State) : s.applyImfWrite.events = s.events := by
  unfold State.applyImfWrite
  split <;> rfl

theorem State.advanceInputs_events (s : State) : s.advanceInputs.events = s.events := by
  unfold State.advanceInputs
  split <;> rfl

/-- A boundary reports nothing. -/
theorem State.boundary_events (s : State) : s.boundary.events = s.events := by
  simp [State.boundary, State.applyReset_events, State.applyImfWrite_events, State.advanceInputs_events]

/-- `r` is a next state that reports exactly one event more than `s`, under the same parameters and devices. -/
def CompletesFrom (s : State) (r : Result) : Prop :=
  ∃ t e, r = .next t ∧ t.events = e :: s.events ∧ t.params = s.params ∧ t.io = s.io

theorem State.acceptNmi_completes (s : State) : CompletesFrom s (.next s.acceptNmi) :=
  ⟨_, .acceptedNmi, rfl, by simp [State.acceptNmi], by simp [State.acceptNmi], by simp [State.acceptNmi]⟩

theorem State.acceptIrq_completes (s : State) (k : Nat) (v : Word) : CompletesFrom s (.next (s.acceptIrq k v)) :=
  ⟨_, .acceptedIrq k, rfl, by simp [State.acceptIrq], by simp [State.acceptIrq], by simp [State.acceptIrq]⟩

/-- An instruction is run, or its bytes are reported as illegal (R235). -/
theorem State.runInstr_completes (s : State) : CompletesFrom s s.runInstr := by
  unfold State.runInstr
  dsimp only
  split
  · exact ⟨_, _, rfl, by rw [State.report_events, State.fetchInstr_events], by simp, by simp⟩
  next i _ =>
    obtain ⟨t, ht, hk⟩ := exec_completes i (State.fetchInstr { s with start := s.pc } [] 4).2.2
    rw [ht]
    exact ⟨_, .executed i, rfl, by simp [hk.events], by simp [hk.params], by simp [hk.io]⟩

/-- Whatever a boundary chooses completes (R238). -/
theorem State.choose_completes (s : State) (levels : List Bool) : CompletesFrom s (s.choose levels) := by
  unfold State.choose
  split
  · exact s.acceptNmi_completes
  · split
    · exact s.acceptIrq_completes _ _
    · exact s.runInstr_completes

theorem step_completes (s : State) : CompletesFrom s (step s) := by
  obtain ⟨t, e, ht, hevents, hparams, hio⟩ := s.boundary.choose_completes s.inputs.irq
  exact ⟨t, e, ht, hevents.trans (congrArg _ s.boundary_events), hparams.trans s.boundary_params,
    hio.trans s.boundary_io⟩

/-- Settles O59: the choice at the boundary has three outcomes, and each completes. -/
theorem everyStepCompletes : Obligations.EveryStepCompletes := by
  refine ⟨step_completes, fun i s => ?_⟩
  obtain ⟨t, ht, hk⟩ := exec_completes i s
  exact ⟨t, ht, hk.params, hk.io, hk.inputs, hk.later, hk.start, hk.nmip, hk.nmil, hk.events, hk.ack⟩

end Sys2Proof.Machine
end

section
/-! ## Bank isolation (R21, R22)

Both halves of the isolation are one equation: putting arbitrary contents into the other banks commutes with every
instruction. -/

namespace Sys2Proof.Machine

/-- `s` with every bank but bank `n` taken from `b`. -/
def State.withOthers (s : State) (n : BitVec 4) (b : Vector Bank 16) : State :=
  { s with bank := b.set n.toNat (s.bank.get n.toFin) n.isLt }

section
variable (s : State) (n : BitVec 4) (b : Vector Bank 16)

@[simp] theorem State.withOthers_rbs : (s.withOthers n b).rbs = s.rbs := rfl
@[simp] theorem State.withOthers_pc : (s.withOthers n b).pc = s.pc := rfl
@[simp] theorem State.withOthers_sp : (s.withOthers n b).sp = s.sp := rfl
@[simp] theorem State.withOthers_flags : (s.withOthers n b).flags = s.flags := rfl
@[simp] theorem State.withOthers_params : (s.withOthers n b).params = s.params := rfl
@[simp] theorem State.withOthers_start : (s.withOthers n b).start = s.start := rfl
@[simp] theorem State.withOthers_getPsw : (s.withOthers n b).getPsw = s.getPsw := rfl
@[simp] theorem State.withOthers_served (a : Word) : (s.withOthers n b).served a = s.served a := rfl

/-! ### Operations that reach no register -/

@[simp] theorem State.withOthers_setFlags (f : Flags) :
    (s.withOthers n b).setFlags f = (s.setFlags f).withOthers n b := rfl

@[simp] theorem State.withOthers_moved : (s.withOthers n b).moved = s.moved.withOthers n b := rfl

@[simp] theorem State.withOthers_branch (d : Word) : (s.withOthers n b).branch d = (s.branch d).withOthers n b := rfl

@[simp] theorem State.withOthers_jump (a : Word) : (s.withOthers n b).jump a = (s.jump a).withOthers n b := rfl

@[simp] theorem State.withOthers_drawBit :
    (s.withOthers n b).drawBit = (s.drawBit.1, s.drawBit.2.withOthers n b) := rfl

@[simp] theorem State.withOthers_drawByte :
    (s.withOthers n b).drawByte = (s.drawByte.1, s.drawByte.2.withOthers n b) := rfl

@[simp] theorem State.withOthers_memRead (a : Word) :
    (s.withOthers n b).memRead a = ((s.memRead a).1, (s.memRead a).2.withOthers n b) := by
  cases h : s.served a <;> simp only [State.memRead, State.withOthers_served, h] <;> rfl

@[simp] theorem State.withOthers_mirrorImf (a : Word) (v : Byte) :
    (s.withOthers n b).mirrorImf a v = (s.mirrorImf a v).withOthers n b := by
  simp only [State.mirrorImf, State.withOthers_params]
  split
  · rfl
  · split <;> rfl

@[simp] theorem State.withOthers_memWrite (a : Word) (v : Byte) :
    (s.withOthers n b).memWrite a v = (s.memWrite a v).withOthers n b := by
  cases h : s.served a <;>
    simp only [State.memWrite, State.withOthers_served, h, ← State.withOthers_mirrorImf] <;> rfl

@[simp] theorem State.withOthers_setPsw (v : Byte) :
    (s.withOthers n b).setPsw v = (s.setPsw v).withOthers n b := by
  simp only [State.setPsw_eq]
  rfl

@[simp] theorem State.withOthers_memRead16 (a : Word) :
    (s.withOthers n b).memRead16 a = ((s.memRead16 a).1, (s.memRead16 a).2.withOthers n b) := by
  simp [State.memRead16]

@[simp] theorem State.withOthers_memWrite16 (a v : Word) :
    (s.withOthers n b).memWrite16 a v = (s.memWrite16 a v).withOthers n b := by
  simp [State.memWrite16]

@[simp] theorem State.withOthers_push8 (v : Byte) : (s.withOthers n b).push8 v = (s.push8 v).withOthers n b :=
  State.withOthers_memWrite { s with sp := s.sp - 1 } n b (s.sp - 1) v

@[simp] theorem State.withOthers_pop8 : (s.withOthers n b).pop8 = (s.pop8.1, s.pop8.2.withOthers n b) := by
  simp only [State.pop8, State.withOthers_sp, State.withOthers_memRead]
  rfl

@[simp] theorem State.withOthers_push16 (v : Word) : (s.withOthers n b).push16 v = (s.push16 v).withOthers n b := by
  simp [State.push16]

@[simp] theorem State.withOthers_pop16 : (s.withOthers n b).pop16 = (s.pop16.1, s.pop16.2.withOthers n b) := by
  simp [State.pop16]

@[simp] theorem State.withOthers_call (a : Word) : (s.withOthers n b).call a = (s.call a).withOthers n b := by
  simp [State.call]

@[simp] theorem State.withOthers_loadVector (v : Word) :
    (s.withOthers n b).loadVector v = (s.loadVector v).withOthers n b := by
  simp only [State.loadVector, State.withOthers_params, State.withOthers_memRead16]
  split <;> rfl

@[simp] theorem State.withOthers_enter (v : Word) : (s.withOthers n b).enter v = (s.enter v).withOthers n b := by
  simp only [State.enter, State.withOthers_pc, State.withOthers_push16, State.withOthers_push8,
    State.withOthers_getPsw, State.withOthers_flags]
  exact State.withOthers_loadVector { (s.push16 s.pc).push8 (s.push16 s.pc).getPsw with
    flags := { ((s.push16 s.pc).push8 (s.push16 s.pc).getPsw).flags with jf := false }, imf := false } n b v

@[simp] theorem State.withOthers_leave : (s.withOthers n b).leave = s.leave.withOthers n b := by
  simp only [State.leave, State.withOthers_pop8, State.withOthers_setPsw, State.withOthers_pop16]
  rfl

@[simp] theorem State.withOthers_store (a : Word) (v : Byte) :
    (s.withOthers n b).store a v = (s.store a v).withOthers n b := by
  simp [State.store]

@[simp] theorem State.withOthers_store16 (a v : Word) :
    (s.withOthers n b).store16 a v = (s.store16 a v).withOthers n b := by
  simp [State.store16]

@[simp] theorem State.withOthers_updateMem (a : Word) (k : Flags → Byte → Byte × Flags) :
    (s.withOthers n b).updateMem a k = (s.updateMem a k).withOthers n b := by
  simp [State.updateMem]

@[simp] theorem State.withOthers_changeBit (a : Word) (k : BitVec 3) (f : Byte → BitVec 3 → Byte) :
    (s.withOthers n b).changeBit a k f = (s.changeBit a k f).withOthers n b :=
  s.withOthers_updateMem n b a _

@[simp] theorem State.withOthers_storeBit (a : Word) (k : BitVec 3) :
    (s.withOthers n b).storeBit a k = (s.storeBit a k).withOthers n b :=
  s.withOthers_updateMem n b a _

@[simp] theorem State.withOthers_testBit (a : Word) (k : BitVec 3) :
    (s.withOthers n b).testBit a k = (s.testBit a k).withOthers n b := by
  simp [State.testBit]

@[simp] theorem State.withOthers_loadBit (a : Word) (k : BitVec 3) :
    (s.withOthers n b).loadBit a k = (s.loadBit a k).withOthers n b := by
  simp [State.loadBit]

@[simp] theorem State.withOthers_xorBit (a : Word) (k : BitVec 3) :
    (s.withOthers n b).xorBit a k = (s.xorBit a k).withOthers n b := by
  simp [State.xorBit]

@[simp] theorem State.withOthers_aluBack (op : AluOp) (a : Word) (v w : Byte) :
    (s.withOthers n b).aluBack op a v w = (s.aluBack op a v w).withOthers n b := by
  by_cases h : op = .cmp <;> simp [State.aluBack, h]

end

/-! ### Operations on the registers of the current bank -/

section
variable {s : State} {n : BitVec 4} (b : Vector Bank 16) (hr : s.rbs = n) (ha : s.params.bankAlias = none)
include hr ha

@[simp] theorem State.withOthers_reg (r : Reg) : (s.withOthers n b).reg r = s.reg r := by
  subst hr
  simp [State.reg, State.bankReg, ha, State.withOthers, Vector.get_eq_getElem]

@[simp] theorem State.withOthers_setReg (r : Reg) (v : Byte) :
    (s.withOthers n b).setReg r v = (s.setReg r v).withOthers n b := by
  subst hr
  simp [State.setReg, State.setBankReg, ha, State.withOthers, Vector.get_eq_getElem]

@[simp] theorem State.withOthers_pair (p : Pair) : (s.withOthers n b).pair p = s.pair p := by
  simp [State.pair, hr, ha]

@[simp] theorem State.withOthers_bitIndex (g : Reg) : (s.withOthers n b).bitIndex g = s.bitIndex g := by
  simp [State.bitIndex, hr, ha]

@[simp] theorem State.withOthers_setPair (p : Pair) (v : Word) :
    (s.withOthers n b).setPair p v = (s.setPair p v).withOthers n b := by
  simp [State.setPair, hr, ha]

@[simp] theorem State.withOthers_resolve (m : Mode) :
    (s.withOthers n b).resolve m = ((s.resolve m).1, (s.resolve m).2.withOthers n b) := by
  cases m <;> simp [State.resolve, hr, ha]

@[simp] theorem State.withOthers_loadReg (r : Reg) (v : Byte) :
    (s.withOthers n b).loadReg r v = (s.loadReg r v).withOthers n b := by
  simp [State.loadReg, hr, ha]

@[simp] theorem State.withOthers_loadPair (p : Pair) (v : Word) :
    (s.withOthers n b).loadPair p v = (s.loadPair p v).withOthers n b := by
  simp [State.loadPair, hr, ha]

@[simp] theorem State.withOthers_putReg (r : Reg) (out : Byte × Flags) :
    (s.withOthers n b).putReg r out = (s.putReg r out).withOthers n b := by
  simp [State.putReg, hr, ha]

@[simp] theorem State.withOthers_putPair (p : Pair) (out : Word × Flags) :
    (s.withOthers n b).putPair p out = (s.putPair p out).withOthers n b := by
  simp [State.putPair, hr, ha]

@[simp] theorem State.withOthers_updateReg (r : Reg) (k : Flags → Byte → Byte × Flags) :
    (s.withOthers n b).updateReg r k = (s.updateReg r k).withOthers n b := by
  simp [State.updateReg, hr, ha]

@[simp] theorem State.withOthers_updatePair (p : Pair) (k : Flags → Word → Word × Flags) :
    (s.withOthers n b).updatePair p k = (s.updatePair p k).withOthers n b := by
  simp [State.updatePair, hr, ha]

@[simp] theorem State.withOthers_changeRegBit (g : Reg) (k : BitVec 3) (f : Byte → BitVec 3 → Byte) :
    (s.withOthers n b).changeRegBit g k f = (s.changeRegBit g k f).withOthers n b :=
  State.withOthers_updateReg b hr ha g _

@[simp] theorem State.withOthers_aluReg (op : AluOp) (r : Reg) (w : Byte) :
    (s.withOthers n b).aluReg op r w = (s.aluReg op r w).withOthers n b := by
  by_cases h : op = .cmp <;> simp [State.aluReg, h, hr, ha]

@[simp] theorem State.withOthers_aluPair (op : AluOp) (p : Pair) (w : Word) :
    (s.withOthers n b).aluPair op p w = (s.aluPair op p w).withOthers n b := by
  by_cases h : op = .cmp <;> simp [State.aluPair, h, hr, ha]

@[simp] theorem State.withOthers_aluAMem (op : AluOp) (a : Word) :
    (s.withOthers n b).aluAMem op a = (s.aluAMem op a).withOthers n b := by
  simp [State.aluAMem, hr, ha]

@[simp] theorem State.withOthers_aluASrc (op : AluOp) (m : Mode) :
    (s.withOthers n b).aluASrc op m = (s.aluASrc op m).withOthers n b := by
  simp [State.aluASrc, hr, ha]

@[simp] theorem State.withOthers_aluSrcN (op : AluOp) (m : Mode) (v : Byte) :
    (s.withOthers n b).aluSrcN op m v = (s.aluSrcN op m v).withOthers n b := by
  simp [State.aluSrcN, hr, ha]

@[simp] theorem State.withOthers_aluSrcHl (op : AluOp) (m : Mode) :
    (s.withOthers n b).aluSrcHl op m = (s.aluSrcHl op m).withOthers n b := by
  simp [State.aluSrcHl, hr, ha]

@[simp] theorem State.withOthers_mulPair (p : Pair) : (s.withOthers n b).mulPair p = (s.mulPair p).withOthers n b := by
  simp [State.mulPair, hr, ha]

@[simp] theorem State.withOthers_divPair (p : Pair) : (s.withOthers n b).divPair p = (s.divPair p).withOthers n b := by
  cases h : divOverflows (s.pair p) (s.reg .c) <;> simp [State.divPair, h, hr, ha]

@[simp] theorem State.withOthers_digitRotate (m : Mode) (k : Byte → Byte → Byte × Byte) :
    (s.withOthers n b).digitRotate m k = (s.digitRotate m k).withOthers n b := by
  simp [State.digitRotate, hr, ha]

end

/-! ### Every instruction -/

theorem State.ite_withOthers (c : Bool) (t u : State) (n : BitVec 4) (b : Vector Bank 16) :
    (if c then t.withOthers n b else u.withOthers n b) = (if c then t else u).withOthers n b := by
  cases c <;> rfl

/-- What stands in the other banks comes out as it went in, and changes nothing else: every arm of `exec` is made of
operations that commute with `State.withOthers`. The arms that write a field beside them, and the branches, stand on
their own. -/
theorem exec_withOthers (i : Instr) {s : State} (b : Vector Bank 16) (ha : s.params.bankAlias = none) :
    ∃ t, exec i s = .next t ∧ exec i (s.withOthers s.rbs b) = .next (t.withOthers s.rbs b) := by
  cases i with
  | reti =>
    exact ⟨_, rfl, congrArg (fun u : State => (.next { u with imf := true } : Result)) (s.withOthers_leave s.rbs b)⟩
  | ldRbsN n => exact ⟨_, rfl, rfl⟩
  | ldSpMn mn => exact ⟨_, rfl, rfl⟩
  | ldSpGg gg =>
    exact ⟨_, rfl, congrArg (fun a => (.next { (s.withOthers s.rbs b).moved with sp := a } : Result))
      (State.withOthers_pair b rfl ha gg)⟩
  | jrsT d => exact ⟨_, rfl, congrArg Host.Outcome.next (State.ite_withOthers s.flags.jf (s.branch _) s s.rbs b)⟩
  | jrsF d => exact ⟨_, rfl, congrArg Host.Outcome.next (State.ite_withOthers s.flags.jf s (s.branch _) s.rbs b)⟩
  | jrCc cc d =>
    exact ⟨_, rfl, congrArg Host.Outcome.next (State.ite_withOthers (condHolds s.flags cc) (s.branch _) s s.rbs b)⟩
  | _ => exact ⟨_, rfl, congrArg Host.Outcome.next (by simp [ha])⟩

/-! ### The two halves of the isolation -/

/-- The registers of bank `n` are all that `State.withOthers n` keeps. -/
theorem State.bankReg_withOthers {s : State} (ha : s.params.bankAlias = none) (n k : BitVec 4) (b : Vector Bank 16)
    (r : Reg) : (s.withOthers n b).bankReg k r = if k = n then s.bankReg k r else (b.get k.toFin).get r := by
  by_cases hk : k = n
  · subst hk
    simp [State.bankReg, ha, State.withOthers, Vector.get_eq_getElem]
  · have hne : ¬ n.toNat = k.toNat := fun e => hk (BitVec.eq_of_toNat_eq e.symm)
    simp [State.bankReg, ha, State.withOthers, Vector.get_eq_getElem, hk, hne]

theorem State.withOthers_self (s : State) (n : BitVec 4) : s.withOthers n s.bank = s := by
  simp [State.withOthers, Vector.get_eq_getElem]

/-- Two banks with the same registers are the same bank. -/
theorem Bank.ext_get {k l : Bank} (h : ∀ r : Reg, k.get r = l.get r) : k = l := by
  cases k
  cases l
  rw [Bank.mk.injEq]
  exact ⟨h .a, h .w, h .c, h .b, h .e, h .d, h .l, h .h⟩

/-- A state that differs from `s` in other banks alone is `s` with those banks. -/
theorem State.eq_withOthers {s s' : State} (ha : s.params.bankAlias = none) (hs : s' = { s with bank := s'.bank })
    (hr : ∀ r : Reg, s'.bankReg s.rbs r = s.bankReg s.rbs r) : s' = s.withOthers s.rbs s'.bank := by
  have ha' : s'.params.bankAlias = none := by rw [hs]; exact ha
  have hk : s'.bank.get s.rbs.toFin = s.bank.get s.rbs.toFin :=
    Bank.ext_get fun r => by simpa only [State.bankReg, ha, ha'] using hr r
  have hb : s'.bank.set s.rbs.toNat (s.bank.get s.rbs.toFin) s.rbs.isLt = s'.bank := by
    simp [← hk, Vector.get_eq_getElem]
  rw [State.withOthers, hb]
  exact hs

/-- Settles O60: with the other banks of `s` itself, `exec_withOthers` says that they are kept; with those of `s'`, that
nothing is learned of them. -/
theorem bankIsolation : Obligations.BankIsolation := by
  intro i s s' t t' ha hs hr ht ht'
  rw [State.eq_withOthers ha hs hr] at ht'
  obtain ⟨u, hu, hkept⟩ := exec_withOthers i s.bank ha
  obtain ⟨u', hu', hlearned⟩ := exec_withOthers i s'.bank ha
  obtain ⟨v, hv, hsurr⟩ := exec_completes i s
  rw [ht, Host.Outcome.next.injEq] at hu hu' hv
  subst hu hu' hv
  rw [State.withOthers_self, ht, Host.Outcome.next.injEq] at hkept
  rw [ht', Host.Outcome.next.injEq] at hlearned
  have hta : t.params.bankAlias = none := by rw [hsurr.params, ha]
  refine ⟨fun n r hn => ?_, by rw [hlearned]; rfl, fun r => ?_⟩
  · rw [hkept, State.bankReg_withOthers hta, if_neg hn]
    simp only [State.bankReg, ha]
  · rw [hlearned, State.bankReg_withOthers hta, if_pos rfl]

end Sys2Proof.Machine
end

section
/-! ## The decoder reads back what the encoder wrote (R73, R86 to R91) -/

namespace Sys2Proof

/-- `decoder` reads the bytes as the instruction `i`: it asks for one more byte until it has seen the last one, and
leaves whatever follows. -/
def ReadsAs (decoder : List Byte → Decoded) (i : Instr) : List Byte → Prop
  | [] => ∀ rest, decoder rest = .instr i rest
  | b :: bytes => decoder [] = .more ∧ ReadsAs (fun rest => decoder (b :: rest)) i bytes

theorem ReadsAs.decode_append {decoder : List Byte → Decoded} {i : Instr} {bytes : List Byte}
    (h : ReadsAs decoder i bytes) (rest : List Byte) : decoder (bytes ++ rest) = .instr i rest := by
  induction bytes generalizing decoder with
  | nil => exact h rest
  | cons b bytes ih => exact ih h.2

theorem ReadsAs.decode_take {decoder : List Byte → Decoded} {i : Instr} {bytes : List Byte}
    (h : ReadsAs decoder i bytes) {k : Nat} (hk : k < bytes.length) : decoder (bytes.take k) = .more := by
  induction bytes generalizing decoder k with
  | nil => exact absurd hk (Nat.not_lt_zero k)
  | cons b bytes ih =>
    cases k with
    | zero => exact h.1
    | succ k => exact ih h.2 (Nat.lt_of_succ_lt_succ hk)

/-- A bit vector is one of the literals of its width. -/
theorem bitVec_cases {w : Nat} {P : BitVec w → Prop} (literal : ∀ k < 2 ^ w, P (BitVec.ofNat w k)) (v : BitVec w) :
    P v := by
  simpa using literal v.toNat v.isLt

theorem Pair.eq_of_isPointer {pp : Pair} (h : pp.isPointer = true) : pp = .de ∨ pp = .hl := by
  cases pp <;> simp_all [Pair.isPointer]

/-- A 16-bit immediate, low byte first (R75). -/
theorem readsAs_imm16 (k : Word → Instr) (mn : Word) : ReadsAs (withImm16 k) (k mn) [loByte mn, hiByte mn] :=
  ⟨rfl, rfl, fun rest => by simp only [withImm16, joinBytes_loByte_hiByte]⟩

/-- The group byte and the extension byte of a source operand (R78, R87). -/
theorem readsAs_srcBytes (m : Mode) {i : Instr} (o : Byte) {imm : List Byte} (h : ReadsAs (decodeSource m o) i imm) :
    ReadsAs decode i (srcBytes m o imm) := by
  rw [srcBytes]
  cases m with
  | direct | hlDisp => rw [Mode.code]; exact ⟨rfl, rfl, rfl, h⟩
  | pcA | de | hl | hlC | hlInc | hlDec => exact ⟨rfl, rfl, h⟩

/-- The group byte and the extension byte of a destination operand (R78, R88). -/
theorem readsAs_dstBytes (m : Mode) {i : Instr} (o : Byte) {imm : List Byte} (h : ReadsAs (decodeDest m o) i imm) :
    ReadsAs decode i (dstBytes m o imm) := by
  rw [dstBytes]
  cases m with
  | direct | hlDisp => rw [Mode.code]; exact ⟨rfl, rfl, rfl, h⟩
  | pcA | de | hl | hlC | hlInc | hlDec => exact ⟨rfl, rfl, h⟩

/-- The group byte of an 8-bit register, whose field names the register back (R89). -/
theorem readsAs_regBytes (g : Reg) {i : Instr} {o : Byte} {imm : List Byte}
    (h : ∀ f : BitVec 3, g = Reg.ofField f → ReadsAs (decodeRegister f o) i imm) :
    ReadsAs decode i (regBytes g.code o imm) := by
  cases g <;> exact ⟨rfl, rfl, h _ rfl⟩

/-- The decoder reads the encoding of every well-formed instruction back, whatever its operands: one alternative for
each form of encoding, with the fields of an opcode byte run through their values. -/
theorem readsAs_encode (i : Instr) (h : i.wellFormed = true) : ReadsAs decode i (encode i) := by
  cases i with
  | nop | swapA | mulWA | divWaC | reti | ret | popPsw | pushPsw | daaA | dasA | clrCf | setCf | cplCf | shlcA
  | shrcA | rolcA | rorcA | incHl | ldAHl | decHl | ldHlA | clrHl => exact ⟨rfl, fun _ => rfl⟩
  | ldRbsN n | ldHlN n | addcAN n | addAN n | subbAN n | subAN n | andAN n | xorAN n | orAN n | cmpAN n | incX x
  | ldAX x | decX x | ldXA x | clrX x | addcAX x | addAX x | subbAX x | subAX x | andAX x | xorAX x | orAX x
  | cmpAX x | jr d | retn | swi => exact ⟨rfl, rfl, fun _ => rfl⟩
  | incRr rr | decRr rr => cases rr <;> exact ⟨rfl, fun _ => rfl⟩
  | ldRrMn rr mn => cases rr <;> exact ⟨rfl, readsAs_imm16 _ mn⟩
  | ldwXMn x mn | ldSpMn mn | callMn mn | jpMn mn => exact ⟨rfl, rfl, readsAs_imm16 _ mn⟩
  | ldwHlMn mn => exact ⟨rfl, readsAs_imm16 _ mn⟩
  | ldXY x y | ldXN x n | callp n => exact ⟨rfl, rfl, rfl, fun _ => rfl⟩
  | ldRN r n => cases r <;> exact ⟨rfl, rfl, fun _ => rfl⟩
  | setXB x b | clrXB x b | ldCfXB x b =>
    induction b using bitVec_cases with
    | literal k hk => interval_cases k <;> exact ⟨rfl, rfl, fun _ => rfl⟩
  | ldAR r | ldRA r | incR r | decR r => cases r <;> exact ⟨rfl, fun _ => rfl⟩
  | jrsT d5 | jrsF d5 =>
    induction d5 using bitVec_cases with
    | literal k hk => interval_cases k <;> exact ⟨rfl, fun _ => rfl⟩
  | callv v4 =>
    induction v4 using bitVec_cases with
    | literal k hk => interval_cases k <;> exact ⟨rfl, fun _ => rfl⟩
  | jrCc cc d => cases cc <;> exact ⟨rfl, rfl, fun _ => rfl⟩
  | roldASrc m | rordASrc m | incSrc m | ldHlSrc m | decSrc m | addcSrcHl m | addSrcHl m | subbSrcHl m | subSrcHl m
  | andSrcHl m | xorSrcHl m | orSrcHl m | cmpSrcHl m | addcASrc m | addASrc m | subbASrc m | subASrc m | andASrc m
  | xorASrc m | orASrc m | cmpASrc m | callSrc m | jpSrc m => exact readsAs_srcBytes m _ fun _ => rfl
  | ldRrSrc rr m => cases rr <;> exact readsAs_srcBytes m _ fun _ => rfl
  | ldXSrc x m | mcmpSrcN m n | addcSrcN m n | addSrcN m n | subbSrcN m n | subSrcN m n | andSrcN m n | xorSrcN m n
  | orSrcN m n | cmpSrcN m n => exact readsAs_srcBytes m _ ⟨rfl, fun _ => rfl⟩
  | setSrcB m b | clrSrcB m b | testSrcB m b | cplSrcB m b | ldSrcBCf m b | xorCfSrcB m b | ldCfSrcB m b =>
    induction b using bitVec_cases with
    | literal k hk => interval_cases k <;> exact readsAs_srcBytes m _ fun _ => rfl
  | ldRSrc r m | xchRSrc r m => cases r <;> exact readsAs_srcBytes m _ fun _ => rfl
  | ldDstRr m rr => cases rr <;> exact readsAs_dstBytes m _ fun _ => rfl
  | ldDstN m n => exact readsAs_dstBytes m _ ⟨rfl, fun _ => rfl⟩
  | ldDstR m r => cases r <;> exact readsAs_dstBytes m _ fun _ => rfl
  | swapG g | daaG g | dasG g | shlcG g | shrcG g | rolcG g | rorcG g | addcAG g | addAG g | subbAG g | subAG g
  | andAG g | xorAG g | orAG g | cmpAG g | addcGA g | addGA g | subbGA g | subGA g | andGA g | xorGA g | orGA g
  | cmpGA g => exact readsAs_regBytes g (by rintro _ rfl _; rfl)
  | mulGg gg | divGgC gg | popGg gg | pushGg gg | addcWaGg gg | addWaGg gg | subbWaGg gg | subWaGg gg | andWaGg gg
  | xorWaGg gg | orWaGg gg | cmpWaGg gg | ldSpGg gg | ldGgSp gg | callGg gg | jpGg gg =>
    cases gg <;> exact ⟨rfl, rfl, fun _ => rfl⟩
  | xchRrGg rr gg | ldRrGg rr gg => cases gg <;> cases rr <;> exact ⟨rfl, rfl, fun _ => rfl⟩
  | addcGgMn gg mn | addGgMn gg mn | subbGgMn gg mn | subGgMn gg mn | andGgMn gg mn | xorGgMn gg mn | orGgMn gg mn
  | cmpGgMn gg mn => cases gg <;> exact ⟨rfl, rfl, readsAs_imm16 _ mn⟩
  | setGB g b | clrGB g b | cplGB g b | ldGBCf g b | xorCfGB g b | ldCfGB g b =>
    induction b using bitVec_cases with
    | literal k hk => interval_cases k <;> exact readsAs_regBytes g (by rintro _ rfl _; rfl)
  | ldRG r g | xchRG r g => exact readsAs_regBytes g (by rintro _ rfl _; cases r <;> rfl)
  | addcGN g n | addGN g n | subbGN g n | subGN g n | andGN g n | xorGN g n | orGN g n | cmpGN g n =>
    exact readsAs_regBytes g (by rintro _ rfl; exact ⟨rfl, fun _ => rfl⟩)
  | setPpG pp g | clrPpG pp g | cplPpG pp g | ldPpGCf pp g | ldCfPpG pp g =>
    obtain rfl | rfl := Pair.eq_of_isPointer h <;> exact readsAs_regBytes g (by rintro _ rfl _; rfl)

/-- Every encoding is 1 to 4 bytes long (R94). -/
theorem encode_length (i : Instr) : 1 ≤ (encode i).length ∧ (encode i).length ≤ 4 := by
  cases i with
  | roldASrc m | rordASrc m | incSrc m | ldHlSrc m | decSrc m | addcSrcHl m | addSrcHl m | subbSrcHl m | subSrcHl m
  | andSrcHl m | xorSrcHl m | orSrcHl m | cmpSrcHl m | addcASrc m | addASrc m | subbASrc m | subASrc m | andASrc m
  | xorASrc m | orASrc m | cmpASrc m | callSrc m | jpSrc m | ldRrSrc rr m | ldXSrc x m | mcmpSrcN m n
  | addcSrcN m n | addSrcN m n | subbSrcN m n | subSrcN m n | andSrcN m n | xorSrcN m n | orSrcN m n | cmpSrcN m n
  | setSrcB m b | clrSrcB m b | testSrcB m b | cplSrcB m b | ldSrcBCf m b | xorCfSrcB m b | ldCfSrcB m b
  | ldRSrc r m | xchRSrc r m =>
    exact Laws.srcBytes_length m _ _ (Nat.le_of_ble_eq_true rfl)
  | ldDstRr m rr | ldDstN m n | ldDstR m r =>
    exact Laws.dstBytes_length m _ _ (Nat.le_of_ble_eq_true rfl)
  | _ => exact ⟨Nat.le_of_ble_eq_true rfl, Nat.le_of_ble_eq_true rfl⟩

end Sys2Proof
end

section
/-! ## A step runs the decoded instruction (R70, R71, R72) -/

namespace Sys2Proof.Machine

/-- With no request accepted, the boundary is followed by one instruction (R238). -/
theorem State.choose_eq_runInstr {u : State} {inputs : Inputs} (hnmip : u.nmip = false)
    (hirq : u.imf = false ∨ inputs.calm u.params.vecIrq.length) : u.choose inputs.irq = u.runInstr := by
  have hnone : (if u.imf then lowestIrq inputs.irq u.params.vecIrq 0 else none) = none := by
    rcases hirq with himf | hcalm
    · simp [himf]
    · rw [lowestIrq_none inputs.irq u.params.vecIrq 0 hcalm, ite_self]
  simp only [State.choose, hnmip, hnone]
  rfl

/-- The bytes of a well-formed instruction are fetched to the last one and no further (R71). -/
theorem State.fetchInstr_encode {s : State} {i : Instr} (hwf : i.wellFormed = true) (hio : s.io = [])
    (hbytes : ∀ k, (h : k < (encode i).length) → s.peek (s.pc + BitVec.ofNat 16 k) = (encode i)[k]) :
    s.fetchInstr [] 4 = (encode i, some i, s.fetched (encode i)) := by
  have hreads := readsAs_encode i hwf
  obtain ⟨hpos, hle⟩ := encode_length i
  exact State.fetchInstr_eq (.instr i []) (some i) (.inl ⟨rfl, rfl⟩) (encode i) [] s 4
    (List.ne_nil_of_length_pos hpos) hle hio (fun k _ hk => hreads.decode_take hk)
    (by simpa using hreads.decode_append []) hbytes

/-- Running an instruction after its fetch (R72). -/
theorem State.runInstr_eq {s t : State} {i : Instr} {bytes : List Byte} {u : State}
    (hfetch : State.fetchInstr { s with start := s.pc } [] 4 = (bytes, some i, u)) (hexec : exec i u = .next t) :
    s.runInstr = .next (t.report (.executed i)) := by
  simp only [State.runInstr, hfetch, hexec]

/-- Settles O51: nothing is accepted, the fetch ends with the last byte of the encoding, and the instruction
completes. -/
theorem stepRunsDecodedInstruction : Obligations.StepRunsDecodedInstruction := by
  intro s i u hwf hio hnmip hirq hbytes
  have huio : u.io = [] := s.boundary_io.trans hio
  have hfetch := State.fetchInstr_encode (s := { u with start := u.pc }) hwf huio hbytes
  obtain ⟨t, hexec, -⟩ := exec_completes i (State.fetched { u with start := u.pc } (encode i))
  refine ⟨t, hexec, ?_, rfl⟩
  rw [← s.boundary_params] at hirq
  calc step s = u.runInstr := State.choose_eq_runInstr hnmip hirq
    _ = .next { t with events := .executed i :: t.events } := State.runInstr_eq hfetch hexec

end Sys2Proof.Machine
end

section
/-! ## Every step keeps the canonical form of the memory (R50, R63; log 4)

The core reaches the memory by byte writes alone, at addresses of 16 bits: `Memory.Becomes` says so of each operation,
of each instruction and of the step, and every such write keeps the canonical form. -/

namespace Sys2Proof.Machine

/-- `n` is what byte writes at 16-bit addresses, any number of them, make of `m`. -/
inductive Memory.Becomes (m : Memory) : Memory → Prop
  | refl : Memory.Becomes m m
  | write {n : Memory} (a : Word) (v : Byte) (h : Memory.Becomes m n) : Memory.Becomes m (n.write a.toNat v)

/-- Writes keep the canonical form. -/
theorem Memory.Becomes.wf {m n : Memory} (h : m.Becomes n) (hm : m.wf) : n.wf := by
  induction h with
  | refl => exact hm
  | write a v _ ih => exact Memory.wf_write _ a.toNat v ih a.isLt

section
variable {m : Memory} {s t : State}

theorem Memory.Becomes.ite {c : Prop} [Decidable c] (hs : m.Becomes s.mem) (ht : m.Becomes t.mem) :
    m.Becomes (if c then s else t).mem := by
  split
  · exact hs
  · exact ht

/-! ### The two places that write: a store of the bus, and a register under `BANK_ALIAS` -/

@[simp] theorem State.becomes_memWrite (h : m.Becomes s.mem) (a : Word) (v : Byte) : m.Becomes (s.memWrite a v).mem := by
  simp only [State.memWrite, State.mirrorImf_mem]
  exact .ite h (h.write a v)

@[simp] theorem State.becomes_setBankReg (h : m.Becomes s.mem) (n : BitVec 4) (r : Reg) (v : Byte) :
    m.Becomes (s.setBankReg n r v).mem := by
  unfold State.setBankReg
  split
  · exact h
  next base _ => exact h.write (bankAddr base n r) v

/-! ### Words, registers, the stack and the interrupt entry -/

@[simp] theorem State.becomes_memWrite16 (h : m.Becomes s.mem) (a v : Word) : m.Becomes (s.memWrite16 a v).mem := by
  simp [State.memWrite16, h]

@[simp] theorem State.becomes_setReg (h : m.Becomes s.mem) (r : Reg) (v : Byte) : m.Becomes (s.setReg r v).mem :=
  State.becomes_setBankReg h s.rbs r v

@[simp] theorem State.becomes_setPair (h : m.Becomes s.mem) (p : Pair) (v : Word) : m.Becomes (s.setPair p v).mem := by
  simp [State.setPair, h]

@[simp] theorem State.becomes_push8 (h : m.Becomes s.mem) (v : Byte) : m.Becomes (s.push8 v).mem :=
  State.becomes_memWrite (s := { s with sp := s.sp - 1 }) h (s.sp - 1) v

@[simp] theorem State.becomes_push16 (h : m.Becomes s.mem) (v : Word) : m.Becomes (s.push16 v).mem := by
  simp [State.push16, h]

@[simp] theorem State.becomes_enter (h : m.Becomes s.mem) (v : Word) : m.Becomes (s.enter v).mem := by
  simp [State.enter, h]

@[simp] theorem State.becomes_call (h : m.Becomes s.mem) (a : Word) : m.Becomes (s.call a).mem := by
  simp [State.call, h]

/-! ### Operands: addressing modes, transfers and results -/

@[simp] theorem State.becomes_resolve (h : m.Becomes s.mem) (md : Mode) : m.Becomes (s.resolve md).2.mem := by
  cases md with
  | hlInc => exact State.becomes_setPair h .hl _
  | hlDec => exact State.becomes_setPair h .hl _
  | _ => exact h

theorem State.becomes_resolve_memRead (h : m.Becomes s.mem) (md : Mode) (a : Word) :
    m.Becomes ((s.resolve md).2.memRead a).2.mem := by
  simp [h]

@[simp] theorem State.becomes_loadReg (h : m.Becomes s.mem) (r : Reg) (v : Byte) : m.Becomes (s.loadReg r v).mem := by
  simp [State.loadReg, h]

@[simp] theorem State.becomes_loadPair (h : m.Becomes s.mem) (p : Pair) (v : Word) : m.Becomes (s.loadPair p v).mem := by
  simp [State.loadPair, h]

@[simp] theorem State.becomes_store (h : m.Becomes s.mem) (a : Word) (v : Byte) : m.Becomes (s.store a v).mem := by
  simp [State.store, h]

@[simp] theorem State.becomes_store16 (h : m.Becomes s.mem) (a v : Word) : m.Becomes (s.store16 a v).mem := by
  simp [State.store16, h]

@[simp] theorem State.becomes_putReg (h : m.Becomes s.mem) (r : Reg) (out : Byte × Flags) :
    m.Becomes (s.putReg r out).mem := by
  simp [State.putReg, h]

@[simp] theorem State.becomes_putPair (h : m.Becomes s.mem) (p : Pair) (out : Word × Flags) :
    m.Becomes (s.putPair p out).mem := by
  simp [State.putPair, h]

@[simp] theorem State.becomes_updateReg (h : m.Becomes s.mem) (r : Reg) (k : Flags → Byte → Byte × Flags) :
    m.Becomes (s.updateReg r k).mem :=
  State.becomes_putReg h r _

@[simp] theorem State.becomes_updatePair (h : m.Becomes s.mem) (p : Pair) (k : Flags → Word → Word × Flags) :
    m.Becomes (s.updatePair p k).mem :=
  State.becomes_putPair h p _

@[simp] theorem State.becomes_updateMem (h : m.Becomes s.mem) (a : Word) (k : Flags → Byte → Byte × Flags) :
    m.Becomes (s.updateMem a k).mem := by
  simp [State.updateMem, h]

/-! ### The ALU, the digit rotates and the bit forms -/

@[simp] theorem State.becomes_aluReg (h : m.Becomes s.mem) (op : AluOp) (r : Reg) (b : Byte) :
    m.Becomes (s.aluReg op r b).mem :=
  .ite h (State.becomes_putReg h r _)

@[simp] theorem State.becomes_aluPair (h : m.Becomes s.mem) (op : AluOp) (p : Pair) (b : Word) :
    m.Becomes (s.aluPair op p b).mem :=
  .ite h (State.becomes_putPair h p _)

@[simp] theorem State.becomes_aluAMem (h : m.Becomes s.mem) (op : AluOp) (a : Word) :
    m.Becomes (s.aluAMem op a).mem := by
  simp [State.aluAMem, h]

@[simp] theorem State.becomes_aluASrc (h : m.Becomes s.mem) (op : AluOp) (md : Mode) :
    m.Becomes (s.aluASrc op md).mem := by
  simp [State.aluASrc, h]

@[simp] theorem State.becomes_aluBack (h : m.Becomes s.mem) (op : AluOp) (a : Word) (v b : Byte) :
    m.Becomes (s.aluBack op a v b).mem :=
  .ite h (State.becomes_memWrite h a _)

@[simp] theorem State.becomes_aluSrcN (h : m.Becomes s.mem) (op : AluOp) (md : Mode) (n : Byte) :
    m.Becomes (s.aluSrcN op md n).mem := by
  simp [State.aluSrcN, h]

@[simp] theorem State.becomes_aluSrcHl (h : m.Becomes s.mem) (op : AluOp) (md : Mode) :
    m.Becomes (s.aluSrcHl op md).mem := by
  simp [State.aluSrcHl, h]

@[simp] theorem State.becomes_mulPair (h : m.Becomes s.mem) (p : Pair) : m.Becomes (s.mulPair p).mem :=
  State.becomes_putPair h p _

@[simp] theorem State.becomes_divPair (h : m.Becomes s.mem) (p : Pair) : m.Becomes (s.divPair p).mem := by
  unfold State.divPair
  have hwritten {u : State} (hu : u.mem = s.mem) (lo hi : Byte) :
      m.Becomes ((u.setReg p.lo lo).setReg p.hi hi).mem := by simp [hu, h]
  exact .ite (hwritten (by simp) _ _) (hwritten rfl _ _)

@[simp] theorem State.becomes_digitRotate (h : m.Becomes s.mem) (md : Mode) (k : Byte → Byte → Byte × Byte) :
    m.Becomes (s.digitRotate md k).mem :=
  State.becomes_loadReg (State.becomes_memWrite (State.becomes_resolve_memRead h md _) _ _) .a _

@[simp] theorem State.becomes_changeBit (h : m.Becomes s.mem) (a : Word) (k : BitVec 3) (f : Byte → BitVec 3 → Byte) :
    m.Becomes (s.changeBit a k f).mem :=
  State.becomes_updateMem h a _

@[simp] theorem State.becomes_storeBit (h : m.Becomes s.mem) (a : Word) (k : BitVec 3) :
    m.Becomes (s.storeBit a k).mem :=
  State.becomes_updateMem h a _

@[simp] theorem State.becomes_changeRegBit (h : m.Becomes s.mem) (g : Reg) (k : BitVec 3)
    (f : Byte → BitVec 3 → Byte) : m.Becomes (s.changeRegBit g k f).mem :=
  State.becomes_updateReg h g _

end

/-! ### Every instruction, and the step -/

/-- Every arm of `exec` is made of the operations above and of operations that leave the memory alone. The conditional
branches, and the exchange with memory, which resolves, reads, stores and writes a register, stand on their own. -/
theorem exec_becomes (i : Instr) (s : State) : ∃ t, exec i s = .next t ∧ s.mem.Becomes t.mem := by
  have h : s.mem.Becomes s.mem := .refl
  cases i with
  | jrsT d => exact ⟨_, rfl, .ite h h⟩
  | jrsF d => exact ⟨_, rfl, .ite h h⟩
  | jrCc cc d => exact ⟨_, rfl, .ite h h⟩
  | xchRSrc r md =>
    exact ⟨_, rfl, State.becomes_setReg (State.becomes_memWrite (State.becomes_resolve_memRead h md _) _ _) r _⟩
  | _ => exact ⟨_, rfl, by simp [h]⟩

theorem State.applyReset_mem (s : State) : s.applyReset.mem = s.mem := by
  unfold State.applyReset
  split <;> simp [State.resetSequence]

theorem State.applyImfWrite_mem (s : State) : s.applyImfWrite.mem = s.mem := by
  unfold State.applyImfWrite
  split <;> rfl

theorem State.advanceInputs_mem (s : State) : s.advanceInputs.mem = s.mem := by
  unfold State.advanceInputs
  split <;> rfl

/-- A boundary writes no memory, with the reset sequence or without (R237, R252). -/
theorem State.boundary_mem (s : State) : s.boundary.mem = s.mem := by
  simp [State.boundary, State.applyReset_mem, State.applyImfWrite_mem, State.advanceInputs_mem]

/-- The fetch and the report write no memory, so one invocation writes what its instruction writes (R72, R235). -/
theorem State.runInstr_becomes (s : State) : ∃ t, s.runInstr = .next t ∧ s.mem.Becomes t.mem := by
  unfold State.runInstr
  dsimp only
  split
  · exact ⟨_, rfl, by simp [Memory.Becomes.refl]⟩
  next i _ =>
    obtain ⟨t, ht, hmem⟩ := exec_becomes i (State.fetchInstr { s with start := s.pc } [] 4).2.2
    rw [ht]
    exact ⟨_, rfl, by simpa using hmem⟩

/-- An accepted interrupt writes its frame, an instruction what it stores (R238). -/
theorem State.choose_becomes (s : State) (levels : List Bool) :
    ∃ t, s.choose levels = .next t ∧ s.mem.Becomes t.mem := by
  unfold State.choose
  split
  · exact ⟨_, rfl, State.becomes_enter (s := { s with nmip := false }) .refl _⟩
  · split
    next k v _ => exact ⟨_, rfl, State.becomes_enter (s := { s with ack := some k }) .refl v⟩
    · exact s.runInstr_becomes

theorem step_becomes (s : State) : ∃ t, step s = .next t ∧ s.mem.Becomes t.mem := by
  obtain ⟨t, ht, hmem⟩ := s.boundary.choose_becomes s.inputs.irq
  exact ⟨t, ht, s.boundary_mem ▸ hmem⟩

/-- Settles O58: a step changes the memory by writes at 16-bit addresses alone, and each of them keeps the canonical
form. -/
theorem stepKeepsMemoryCanonical : Obligations.StepKeepsMemoryCanonical := by
  intro s t hwf hstep
  obtain ⟨u, hu, hmem⟩ := step_becomes s
  obtain rfl : u = t := Host.Outcome.next.inj (hu.symm.trans hstep)
  exact hmem.wf hwf

end Sys2Proof.Machine
end

section
/-! ## Bus accesses, the stack and the software interrupt (R52, R54, R57 to R63, R232) -/

namespace Sys2Proof.Machine

/-- One read that a device serves: a free value, drawn once (R63; log 10). -/
theorem State.memRead_of_served {s : State} {a : Word} (h : s.served a = true) :
    s.memRead a = (Config.busAnswer s.draws,
      { s with draws := s.draws + 1, bus := s.bus ++ [.read a (Config.busAnswer s.draws)] }) := if_pos h

/-- A log entry more on the bus, and nothing else. -/
theorem SameBut.append_bus (s : State) (acc : List BusAccess) : SameBut s { s with bus := s.bus ++ acc } [] [] acc := by
  constructor <;> intros <;> rfl

/-- Which addresses a device serves depends on the parameters and the devices alone. -/
@[simp] theorem State.served_memWrite (s : State) (a b : Word) (v : Byte) : (s.memWrite a v).served b = s.served b := by
  simp [State.served]

/-- Settles O9: served and unserved addresses apart, each clause is the rule of one access. -/
theorem busAccesses : Obligations.BusAccesses := by
  intro s a v w
  have hself (h : s.served a = false) : (s.memWrite a v).peek a = v := by
    rw [State.peek_memWrite, if_pos ⟨rfl, h⟩]
  refine ⟨fun h => ⟨s.memRead_fst a h, s.sameBut_memRead a h⟩, fun h => ?_, fun h => ⟨hself h, ?_⟩, fun b hb => ?_,
    ⟨rfl, rfl⟩, ?_⟩
  · rw [State.memRead_of_served h]
    exact ⟨rfl, SameBut.append_bus { s with draws := s.draws + 1 } _⟩
  · rw [State.memRead_fst _ a ((s.served_memWrite a a v).trans h), hself h]
  · rw [State.peek_memWrite, if_neg]
    rintro ⟨rfl, hserved⟩
    simp [hserved] at hb
  · rw [← loByte_eq_extract, ← hiByte_eq_extract]
    rfl

/-- Settles O8: the frame of each primitive, and what stands in the bytes that a push stored. -/
theorem stackPrimitives : Obligations.StackPrimitives := by
  intro s h
  refine ⟨fun v => ⟨?_, h.sameBut_push8 v⟩, ⟨h.pop8, h.sameBut_pop8⟩, fun v => ?_, ⟨h.pop16, h.sameBut_pop16⟩⟩
  · rw [h.peek_push8, if_pos rfl]
  · have hne : s.sp - 1 ≠ s.sp - 2 := by bv_omega
    rw [← loByte_eq_extract, ← hiByte_eq_extract]
    refine ⟨?_, ?_, h.sameBut_push16 v⟩
    · rw [h.peek_push16, if_pos rfl]
    · rw [h.peek_push16, if_neg hne, if_pos rfl]

/-- Settles O49: the meaning of SWI is the entry through VEC_SWI, and reads IMF nowhere. -/
theorem softwareInterrupt : Obligations.SoftwareInterrupt := by
  exact fun s h => ⟨rfl, _, rfl, h.enter_frame s.params.vecSwi⟩

end Sys2Proof.Machine
end

section
/-! ## The encoder writes what the decoder has read (R73, R86 to R94) -/

namespace Sys2Proof

/-! ### Opcode bytes by row and field -/

/-- The opcode byte with `r` in bits 7..3 and `v` in bits 2..0 (R74). -/
def opcode (r : Nat) (v : BitVec 3) : Byte := BitVec.ofNat 8 (8 * r) ||| bitCode v

theorem opcode_toNat : ∀ {r : Nat}, r < 32 → ∀ v : BitVec 3, (opcode r v).toNat = 8 * r + v.toNat := by decide

theorem rowField_opcode : ∀ {r : Nat}, r < 32 → ∀ v : BitVec 3, rowField (opcode r v) = r := by decide

theorem lowField_opcode : ∀ {r : Nat}, r < 32 → ∀ v : BitVec 3, lowField (opcode r v) = v := by decide

/-- Every byte is an opcode byte, by its own row and field. -/
theorem exists_opcode (o : Byte) : ∃ r < 32, ∃ v, o = opcode r v := by
  have hfields : ∀ o : Byte, rowField o < 32 ∧ o = opcode (rowField o) (lowField o) := by decide
  exact ⟨rowField o, (hfields o).1, lowField o, (hfields o).2⟩

theorem field_eq {w : Nat} {v : BitVec w} {k : Nat} (h : v.toNat = k) : v = BitVec.ofNat w k := by
  rw [← h, BitVec.ofNat_toNat, BitVec.setWidth_eq]

/-- Bit 2 of a field tells its upper four values from its lower four. -/
theorem getLsbD_two_iff : ∀ v : BitVec 3, v.getLsbD 2 = true ↔ 4 ≤ v.toNat := by decide

theorem Reg.code_ofField : ∀ v : BitVec 3, (Reg.ofField v).code = bitCode v := by decide

theorem Cond.code_ofField : ∀ v : BitVec 3, (Cond.ofField v).code = bitCode v := by decide

theorem Pair.code_ofField : ∀ v : BitVec 3, ¬ v.getLsbD 2 = true → (Pair.ofField v).code = bitCode v := by decide

/-- A pair in the upper half of a row. -/
theorem opcode_pairHigh (r : Nat) : r < 32 → ∀ {v : BitVec 3}, v.getLsbD 2 = true →
    opcode r v = BitVec.ofNat 8 (8 * r + 4) ||| (Pair.ofField v).code := by
  revert r; decide

/-! ### What the decoder has read -/

/-- `bytes` are the encoding of the well-formed instruction `i`. -/
def Encodes (bytes : List Byte) (i : Instr) : Prop := i.wellFormed = true ∧ encode i = bytes

/-- The answer `d` accounts for all of `bytes`: one more byte is asked for before the fourth, and an instruction's
encoding is exactly the bytes in front of the rest (R93, R94). -/
def Accounts (bytes : List Byte) (d : Decoded) : Prop :=
  match d with
  | .more => bytes.length < 4
  | .instr i rest => ∃ read, Encodes read i ∧ bytes = read ++ rest
  | .illegal _ => True

theorem Encodes.length_le {bytes : List Byte} {i : Instr} (h : Encodes bytes i) : bytes.length ≤ 4 :=
  h.2 ▸ (encode_length i).2

theorem accounts_instr {i : Instr} (read rest : List Byte) (h : Encodes read i) :
    Accounts (read ++ rest) (.instr i rest) :=
  ⟨read, h, rfl⟩

/-- The decoder asks for an operand byte after at most three others, since no encoding is longer than four. -/
theorem accounts_withImm8 {k : Byte → Instr} (read rest : List Byte) (h : ∀ n, Encodes (read ++ [n]) (k n)) :
    Accounts (read ++ rest) (withImm8 k rest) := by
  cases rest with
  | nil =>
    have := (h 0).length_le
    simp only [List.length_append, List.length_singleton] at this
    simp only [withImm8, Accounts, List.append_nil]
    omega
  | cons n rest => exact ⟨read ++ [n], h n, by simp⟩

theorem accounts_withImm16 {k : Word → Instr} (read rest : List Byte)
    (h : ∀ mn, Encodes (read ++ [loByte mn, hiByte mn]) (k mn)) : Accounts (read ++ rest) (withImm16 k rest) := by
  have hlen := (h 0).length_le
  simp only [List.length_append, List.length_cons, List.length_nil] at hlen
  match rest with
  | [] | [_] =>
    simp only [withImm16, Accounts, List.length_append, List.length_cons, List.length_nil]
    omega
  | n :: m :: rest =>
    have hk := h (joinBytes n m)
    rw [loByte_joinBytes, hiByte_joinBytes] at hk
    exact ⟨read ++ [n, m], hk, by simp⟩

theorem accounts_withOp {k : Byte → List Byte → Decoded} (read bytes : List Byte) (hread : read.length < 4)
    (h : ∀ o rest, Accounts (read ++ o :: rest) (k o rest)) : Accounts (read ++ bytes) (withOp k bytes) := by
  cases bytes with
  | nil => simpa [withOp, Accounts] using hread
  | cons o rest => exact h o rest

/-- The group byte `p` with a mode in its field, and the extension byte of that mode (R78). -/
theorem accounts_withMode {p : Byte} {k : Mode → Byte → List Byte → Decoded}
    (h : ∀ m o rest, Accounts ((p ||| m.code) :: (m.ext ++ [o]) ++ rest) (k m o rest)) (v : BitVec 3)
    (bytes : List Byte) : Accounts ((p ||| bitCode v) :: bytes) (withMode v k bytes) := by
  have hmode (m : Mode) (bytes : List Byte) :
      Accounts ((p ||| m.code) :: m.ext ++ bytes) (withOp (k m) bytes) :=
    accounts_withOp _ bytes (Nat.lt_of_le_of_lt (Nat.succ_le_succ (Laws.mode_ext_length m)) (by decide)) fun o rest =>
      by simpa using h m o rest
  induction v using bitVec_cases with
  | literal j hj =>
    interval_cases j
    · cases bytes with
      | nil => exact Nat.le_of_ble_eq_true rfl
      | cons x rest => exact hmode (.direct x) rest
    · exact hmode .pcA bytes
    · exact hmode .de bytes
    · exact hmode .hl bytes
    · cases bytes with
      | nil => exact Nat.le_of_ble_eq_true rfl
      | cons d rest => exact hmode (.hlDisp d) rest
    · exact hmode .hlC bytes
    · exact hmode .hlInc bytes
    · exact hmode .hlDec bytes

/-! ### The groups with an operation byte -/

theorem srcBytes_append (m : Mode) (o : Byte) (imm rest : List Byte) :
    srcBytes m o (imm ++ rest) = srcBytes m o imm ++ rest := by simp [srcBytes]

theorem dstBytes_append (m : Mode) (o : Byte) (imm rest : List Byte) :
    dstBytes m o (imm ++ rest) = dstBytes m o imm ++ rest := by simp [dstBytes]

/-- The source group (R87). -/
theorem accounts_decodeSource (m : Mode) (o : Byte) (rest : List Byte) :
    Accounts (srcBytes m o [] ++ rest) (decodeSource m o rest) := by
  obtain ⟨r, hr, v, rfl⟩ := exists_opcode o
  simp only [decodeSource, rowField_opcode hr, lowField_opcode hr]
  split
  -- one operation byte
  case h_1 hv | h_2 hv | h_4 hv | h_6 hv | h_7 hv | h_21 hv | h_22 hv =>
    cases field_eq hv
    exact accounts_instr _ rest ⟨rfl, rfl⟩
  case h_5 hv | h_8 hv =>
    cases field_eq hv
    exact accounts_withImm8 _ rest fun n => ⟨rfl, srcBytes_append m _ [] [n]⟩
  -- a bit number, a register or an ALU operation in the field
  case h_9 | h_10 | h_11 | h_17 | h_18 | h_19 | h_20 => exact accounts_instr _ rest ⟨rfl, rfl⟩
  case h_12 | h_16 =>
    rw [opcode, ← Reg.code_ofField]
    exact accounts_instr _ rest ⟨rfl, rfl⟩
  case h_13 | h_15 =>
    induction v using bitVec_cases with
    | literal k hk => interval_cases k <;> exact accounts_instr _ rest ⟨rfl, rfl⟩
  case h_14 =>
    induction v using bitVec_cases with
    | literal k hk =>
      interval_cases k <;> exact accounts_withImm8 _ rest fun n => ⟨rfl, srcBytes_append m _ [] [n]⟩
  -- a pair in the upper half of the row
  case h_3 =>
    split
    next hv => rw [opcode_pairHigh 2 (by decide) hv]; exact accounts_instr _ rest ⟨rfl, rfl⟩
    next => trivial
  case h_23 => trivial

/-- The destination group (R88). -/
theorem accounts_decodeDest (m : Mode) (o : Byte) (rest : List Byte) :
    Accounts (dstBytes m o [] ++ rest) (decodeDest m o rest) := by
  obtain ⟨r, hr, v, rfl⟩ := exists_opcode o
  simp only [decodeDest, rowField_opcode hr, lowField_opcode hr]
  split
  case h_1 =>
    split
    next => trivial
    next hv => rw [opcode, ← Pair.code_ofField v hv]; exact accounts_instr _ rest ⟨rfl, rfl⟩
  case h_2 hv =>
    cases field_eq hv
    exact accounts_withImm8 _ rest fun n => ⟨rfl, dstBytes_append m _ [] [n]⟩
  case h_3 =>
    rw [opcode, ← Reg.code_ofField]
    exact accounts_instr _ rest ⟨rfl, rfl⟩
  case h_4 => trivial

/-- The operand of a 16-bit operation of the register prefix is a pair (R90). -/
theorem accounts_withPair {o : Byte} {rest : List Byte} {k : Pair → Decoded}
    (h : ∀ gg : Pair, Accounts (regBytes gg.code o [] ++ rest) (k gg)) (g : BitVec 3) :
    Accounts (regBytes (bitCode g) o [] ++ rest) (withPair g k) := by
  unfold withPair
  split
  next => trivial
  next hg =>
    rw [← Pair.code_ofField g hg]
    exact h _

/-- The register prefix (R89, R90). -/
theorem accounts_decodeRegister (g : BitVec 3) (o : Byte) (rest : List Byte) :
    Accounts (regBytes (bitCode g) o [] ++ rest) (decodeRegister g o rest) := by
  obtain ⟨r, hr, v, rfl⟩ := exists_opcode o
  simp only [decodeRegister, rowField_opcode hr, lowField_opcode hr]
  split
  -- an 8-bit register behind the prefix, one operation byte
  case h_1 hv | h_7 hv | h_8 hv | h_10 hv | h_11 hv | h_12 hv | h_13 hv | h_22 hv | h_23 hv | h_24 hv | h_25 hv
      | h_26 hv | h_27 hv | h_28 hv | h_29 hv | h_30 hv | h_31 hv =>
    cases field_eq hv
    rw [← Reg.code_ofField g]
    exact accounts_instr _ rest ⟨rfl, rfl⟩
  -- and a bit number, a register or an ALU operation in the field
  case h_16 | h_17 | h_33 | h_34 | h_35 | h_36 =>
    rw [← Reg.code_ofField g]
    exact accounts_instr _ rest ⟨rfl, rfl⟩
  case h_18 | h_32 =>
    rw [← Reg.code_ofField g, opcode, ← Reg.code_ofField v]
    exact accounts_instr _ rest ⟨rfl, rfl⟩
  case h_19 | h_20 =>
    rw [← Reg.code_ofField g]
    induction v using bitVec_cases with
    | literal k hk => interval_cases k <;> exact accounts_instr _ rest ⟨rfl, rfl⟩
  case h_21 =>
    rw [← Reg.code_ofField g]
    induction v using bitVec_cases with
    | literal k hk => interval_cases k <;> exact accounts_withImm8 _ rest fun _ => ⟨rfl, rfl⟩
  -- a pair behind the prefix, one operation byte
  case h_2 hv | h_3 hv | h_5 hv | h_6 hv | h_37 hv | h_38 hv | h_39 hv | h_40 hv =>
    cases field_eq hv
    exact accounts_withPair (fun gg => accounts_instr _ rest ⟨rfl, rfl⟩) g
  -- and a pair or an ALU operation in the field
  case h_9 =>
    refine accounts_withPair (fun gg => accounts_instr _ rest ?_) g
    split
    next hv => rw [opcode_pairHigh 2 (by decide) hv]; exact ⟨rfl, rfl⟩
    next hv => rw [opcode, ← Pair.code_ofField v hv]; exact ⟨rfl, rfl⟩
  case h_14 =>
    induction v using bitVec_cases with
    | literal k hk =>
      interval_cases k <;> exact accounts_withPair (fun gg => accounts_instr _ rest ⟨rfl, rfl⟩) g
  case h_15 =>
    induction v using bitVec_cases with
    | literal k hk =>
      interval_cases k <;> exact accounts_withPair (fun gg => accounts_withImm16 _ rest fun _ => ⟨rfl, rfl⟩) g
  -- RETN
  case h_4 hv =>
    cases field_eq hv
    split
    next hg => subst hg; exact accounts_instr _ rest ⟨rfl, rfl⟩
    next => trivial
  case h_41 => trivial

/-- The control-transfer group (R91). -/
theorem accounts_decodeControl (o : Byte) (rest : List Byte) : Accounts ([0xFF, o] ++ rest) (decodeControl o rest) := by
  unfold decodeControl
  split
  case h_1 ho | h_2 ho | h_4 ho =>
    cases field_eq ho
    exact accounts_withImm16 _ rest fun _ => ⟨rfl, rfl⟩
  case h_3 ho =>
    cases field_eq ho
    exact accounts_withImm8 _ rest fun _ => ⟨rfl, rfl⟩
  case h_5 ho =>
    cases field_eq ho
    exact accounts_instr _ rest ⟨rfl, rfl⟩
  case h_6 => trivial

/-! ### The single-byte group, row by row, and the whole decoder (R86) -/

theorem accounts_decodeRow0 (v : BitVec 3) (rest : List Byte) :
    Accounts ([opcode 0 v] ++ rest) (decodeRow0 v rest) := by
  induction v using bitVec_cases with
  | literal k hk => interval_cases k <;> exact accounts_instr _ rest ⟨rfl, rfl⟩

theorem accounts_decodeRow1 (v : BitVec 3) (rest : List Byte) :
    Accounts ([opcode 1 v] ++ rest) (decodeRow1 v rest) := by
  unfold decodeRow1
  split
  case h_1 hv | h_2 hv | h_3 hv | h_4 hv | h_5 hv => cases field_eq hv; exact accounts_instr _ rest ⟨rfl, rfl⟩
  case h_6 hv => cases field_eq hv; exact accounts_withImm8 _ rest fun _ => ⟨rfl, rfl⟩
  case h_7 => trivial

theorem accounts_decodeRow3 (v : BitVec 3) (rest : List Byte) :
    Accounts ([opcode 3 v] ++ rest) (decodeRow3 v rest) := by
  induction v using bitVec_cases with
  | literal k hk => interval_cases k <;> exact accounts_instr _ rest ⟨rfl, rfl⟩

theorem accounts_decodeRow4 (v : BitVec 3) (rest : List Byte) :
    Accounts ([opcode 4 v] ++ rest) (decodeRow4 v rest) := by
  induction v using bitVec_cases with
  | literal k hk =>
    interval_cases k
    · exact accounts_withImm8 _ rest fun _ => ⟨rfl, rfl⟩
    · exact accounts_instr _ rest ⟨rfl, rfl⟩
    · exact accounts_withImm8 _ rest fun _ => ⟨rfl, rfl⟩
    · exact accounts_instr _ rest ⟨rfl, rfl⟩
    · cases rest with
      | nil => exact Nat.le_of_ble_eq_true rfl
      | cons x rest => exact accounts_withImm16 [0x24, x] rest fun _ => ⟨rfl, rfl⟩
    · exact accounts_withImm16 _ rest fun _ => ⟨rfl, rfl⟩
    · cases rest with
      | nil => exact Nat.le_of_ble_eq_true rfl
      | cons y rest => exact accounts_withImm8 [0x26, y] rest fun _ => ⟨rfl, rfl⟩
    · cases rest <;> trivial

theorem accounts_decodeRow5 (v : BitVec 3) (rest : List Byte) :
    Accounts ([opcode 5 v] ++ rest) (decodeRow5 v rest) := by
  induction v using bitVec_cases with
  | literal k hk =>
    interval_cases k
    · exact accounts_withImm8 _ rest fun _ => ⟨rfl, rfl⟩
    · exact accounts_instr _ rest ⟨rfl, rfl⟩
    · exact accounts_withImm8 _ rest fun _ => ⟨rfl, rfl⟩
    · exact accounts_instr _ rest ⟨rfl, rfl⟩
    · cases rest with
      | nil => exact Nat.le_of_ble_eq_true rfl
      | cons x rest => exact accounts_withImm8 [0x2C, x] rest fun _ => ⟨rfl, rfl⟩
    · exact accounts_withImm8 _ rest fun _ => ⟨rfl, rfl⟩
    · exact accounts_withImm8 _ rest fun _ => ⟨rfl, rfl⟩
    · exact accounts_instr _ rest ⟨rfl, rfl⟩

/-- The single-byte group without the first bytes 0xF8 to 0xFF (R86). -/
theorem accounts_decodeSingle (b0 : Byte) (rest : List Byte) : Accounts ([b0] ++ rest) (decodeSingle b0 rest) := by
  obtain ⟨r, hr, v, rfl⟩ := exists_opcode b0
  simp only [decodeSingle, rowField_opcode hr, lowField_opcode hr]
  split
  case h_1 => exact accounts_decodeRow0 v rest
  case h_2 => exact accounts_decodeRow1 v rest
  case h_4 => exact accounts_decodeRow3 v rest
  case h_5 => exact accounts_decodeRow4 v rest
  case h_6 => exact accounts_decodeRow5 v rest
  -- a pair in either half of the row
  case h_3 =>
    split
    next hv => rw [opcode_pairHigh 2 (by decide) hv]; exact accounts_withImm16 _ rest fun _ => ⟨rfl, rfl⟩
    next hv => rw [opcode, ← Pair.code_ofField v hv]; exact accounts_instr _ rest ⟨rfl, rfl⟩
  -- a register, a bit number, a condition or an ALU operation in the field
  case h_7 => rw [opcode, ← Reg.code_ofField]; exact accounts_withImm8 _ rest fun _ => ⟨rfl, rfl⟩
  case h_10 | h_11 | h_12 | h_13 => rw [opcode, ← Reg.code_ofField]; exact accounts_instr _ rest ⟨rfl, rfl⟩
  case h_8 | h_9 | h_27 => exact accounts_withImm8 _ rest fun _ => ⟨rfl, rfl⟩
  case h_26 => rw [opcode, ← Cond.code_ofField]; exact accounts_withImm8 _ rest fun _ => ⟨rfl, rfl⟩
  case h_14 | h_15 =>
    induction v using bitVec_cases with
    | literal k hk => interval_cases k <;> exact accounts_withImm8 _ rest fun _ => ⟨rfl, rfl⟩
  -- a displacement or a vector number that reaches into the row
  case h_16 | h_17 | h_18 | h_19 | h_20 | h_21 | h_22 | h_23 | h_24 | h_25 =>
    induction v using bitVec_cases with
    | literal k hk => interval_cases k <;> exact accounts_instr _ rest ⟨rfl, rfl⟩
  case h_28 => trivial

/-- The decoder accounts for every byte it looks at. -/
theorem accounts_decode (bytes : List Byte) : Accounts bytes (decode bytes) := by
  cases bytes with
  | nil => exact Nat.le_of_ble_eq_true rfl
  | cons b0 rest =>
    obtain ⟨r, hr, v, rfl⟩ := exists_opcode b0
    simp only [decode, rowField_opcode hr, lowField_opcode hr]
    split
    case h_1 =>
      exact accounts_withMode accounts_decodeSource v rest
    case h_2 => exact accounts_withOp [_] rest (Nat.le_of_ble_eq_true rfl) (accounts_decodeRegister v)
    case h_3 =>
      exact accounts_withMode accounts_decodeDest v rest
    case h_4 =>
      split
      case h_1 hv => cases field_eq hv; exact accounts_withImm8 [0xFB] rest fun _ => ⟨rfl, rfl⟩
      case h_2 hv =>
        cases field_eq hv
        exact accounts_withOp [0xFF] rest (Nat.le_of_ble_eq_true rfl) accounts_decodeControl
      case h_3 => trivial
    case h_5 => exact accounts_decodeSingle _ rest

/-- Settles O1: the decoder reads every encoding back, byte by byte. -/
theorem decodeOfEncode : Obligations.DecodeOfEncode :=
  fun i rest hwf => (readsAs_encode i hwf).decode_append rest

/-- Settles O2: the decoder accounts for the bytes it has read. -/
theorem encodeOfDecode : Obligations.EncodeOfDecode := by
  intro bytes rest i hdecode
  have hread := accounts_decode bytes
  rw [hdecode] at hread
  obtain ⟨read, ⟨hwf, rfl⟩, hbytes⟩ := hread
  exact ⟨hwf, hbytes, encode_length i⟩

/-- Settles O4: a request for one more byte comes before the fourth byte, and an instruction read is its own encoding,
which decodes in front of any rest. -/
theorem decodeNeedsAtMostFourBytes : Obligations.DecodeNeedsAtMostFourBytes := by
  refine ⟨fun bytes hlen hmore => ?_, fun bytes rest more i hdecode => ?_⟩
  · have hshort := accounts_decode bytes
    rw [hmore] at hshort
    exact Nat.not_lt_of_le hlen hshort
  · obtain ⟨hwf, rfl, -⟩ := encodeOfDecode bytes rest i hdecode
    rw [List.append_assoc]
    exact decodeOfEncode i (rest ++ more) hwf

/-- Settles O5: each word is read by its own group. -/
theorem decodeWords : Obligations.DecodeWords :=
  ⟨rfl, rfl, rfl, rfl, rfl, rfl, rfl⟩

end Sys2Proof
end

section
/-! ## The illegal byte sequences (R90, R92) -/

namespace Sys2Proof

/-! ### The bytes that the tables name -/

/-- The first bytes that begin no instruction (R86, R92). -/
def IsIllegalFirst (b0 : Byte) : Prop :=
  b0 = 0x08 ∨ b0 = 0x09 ∨ b0 = 0x27 ∨ (0x38 ≤ b0 ∧ b0 ≤ 0x3F) ∨ (0xF8 ≤ b0 ∧ b0 ≤ 0xFA) ∨ (0xFC ≤ b0 ∧ b0 ≤ 0xFE)

/-- The operation bytes of the source group (R87). -/
def IsSourceOp (o : Byte) : Prop :=
  o = 0x08 ∨ o = 0x09 ∨ (0x14 ≤ o ∧ o ≤ 0x17) ∨ o = 0x20 ∨ o = 0x26 ∨ o = 0x27 ∨ o = 0x28 ∨ o = 0x2F ∨
    (0x40 ≤ o ∧ o ≤ 0x6F) ∨ (0x78 ≤ o ∧ o ≤ 0x7F) ∨ (0xA8 ≤ o ∧ o ≤ 0xAF) ∨ (0xC0 ≤ o ∧ o ≤ 0xDF) ∨ o = 0xFC ∨
    o = 0xFE

/-- The operation bytes of the destination group (R88). -/
def IsDestOp (o : Byte) : Prop := (0x10 ≤ o ∧ o ≤ 0x13) ∨ o = 0x2C ∨ (0x50 ≤ o ∧ o ≤ 0x57)

/-- The operation bytes of the register prefix (R89). -/
def IsRegisterOp (o : Byte) : Prop :=
  (0x01 ≤ o ∧ o ≤ 0x04) ∨ o = 0x06 ∨ o = 0x07 ∨ o = 0x0A ∨ o = 0x0B ∨ (0x10 ≤ o ∧ o ≤ 0x17) ∨
    (0x1C ≤ o ∧ o ≤ 0x1F) ∨ (0x30 ≤ o ∧ o ≤ 0x4F) ∨ (0x58 ≤ o ∧ o ≤ 0x77) ∨ o = 0x82 ∨ o = 0x83 ∨ o = 0x8A ∨
    o = 0x8B ∨ o = 0x92 ∨ o = 0x93 ∨ o = 0x9A ∨ o = 0x9B ∨ o = 0x9E ∨ o = 0x9F ∨ (0xA8 ≤ o ∧ o ≤ 0xAF) ∨
    (0xC0 ≤ o ∧ o ≤ 0xDF) ∨ (0xFA ≤ o ∧ o ≤ 0xFC) ∨ o = 0xFE

/-- The 16-bit operations of the register prefix, whose operand is a pair (R90). -/
def IsPairOp (o : Byte) : Prop :=
  o = 0x02 ∨ o = 0x03 ∨ o = 0x06 ∨ o = 0x07 ∨ (0x10 ≤ o ∧ o ≤ 0x17) ∨ (0x30 ≤ o ∧ o ≤ 0x3F) ∨
    (0xFA ≤ o ∧ o ≤ 0xFC) ∨ o = 0xFE

/-- The operation bytes of the control-transfer group (R91). -/
def IsControlOp (o : Byte) : Prop := o = 0xFA ∨ (0xFC ≤ o ∧ o ≤ 0xFF)

/-! ### Every other byte is illegal -/

/-- Every alternative of the table but the last is for operation bytes that R87 names, the row of the pairs in its
upper half. -/
theorem decodeSource_illegal {o : Byte} (ho : ¬ IsSourceOp o) (m : Mode) (rest : List Byte) :
    decodeSource m o rest = .illegal .sourceOp := by
  obtain ⟨r, hr, v, rfl⟩ := exists_opcode o
  have hlt := v.isLt
  simp only [IsSourceOp, BitVec.le_def, ← BitVec.toNat_inj, opcode_toNat hr, BitVec.reduceToNat] at ho
  simp only [decodeSource, rowField_opcode hr, lowField_opcode hr, getLsbD_two_iff]
  split
  case h_3 => rw [if_neg (by omega)]
  case h_23 => rfl
  all_goals
    exfalso
    omega

/-- As in the source group, with the row of the pairs in its lower half (R88). -/
theorem decodeDest_illegal {o : Byte} (ho : ¬ IsDestOp o) (m : Mode) (rest : List Byte) :
    decodeDest m o rest = .illegal .destOp := by
  obtain ⟨r, hr, v, rfl⟩ := exists_opcode o
  have hlt := v.isLt
  simp only [IsDestOp, BitVec.le_def, ← BitVec.toNat_inj, opcode_toNat hr, BitVec.reduceToNat] at ho
  simp only [decodeDest, rowField_opcode hr, lowField_opcode hr, getLsbD_two_iff]
  split
  case h_1 => rw [if_pos (by omega)]
  case h_4 => rfl
  all_goals
    exfalso
    omega

theorem decodeRegister_illegal {o : Byte} (ho : ¬ IsRegisterOp o) (g : BitVec 3) (rest : List Byte) :
    decodeRegister g o rest = .illegal .registerOp := by
  obtain ⟨r, hr, v, rfl⟩ := exists_opcode o
  have hlt := v.isLt
  simp only [IsRegisterOp, BitVec.le_def, ← BitVec.toNat_inj, opcode_toNat hr, BitVec.reduceToNat] at ho
  simp only [decodeRegister, rowField_opcode hr, lowField_opcode hr]
  split
  case h_41 => rfl
  all_goals
    exfalso
    omega

/-- Each 16-bit operation asks for a pair first, and a field of 4 or more names none (R90). -/
theorem decodeRegister_pairOperand {o : Byte} (ho : IsPairOp o) {g : BitVec 3} (hg : g.getLsbD 2 = true)
    (rest : List Byte) : decodeRegister g o rest = .illegal .pairOperand := by
  obtain ⟨r, hr, v, rfl⟩ := exists_opcode o
  have hlt := v.isLt
  simp only [IsPairOp, BitVec.le_def, ← BitVec.toNat_inj, opcode_toNat hr, BitVec.reduceToNat] at ho
  have hnone (k : Pair → Decoded) : withPair g k = .illegal .pairOperand := if_pos hg
  simp only [decodeRegister, rowField_opcode hr, lowField_opcode hr, hnone]
  obtain ⟨rfl, hv⟩ | rfl | rfl | rfl | ⟨rfl, hv⟩ :
      (r = 0 ∧ (v.toNat = 2 ∨ v.toNat = 3 ∨ v.toNat = 6 ∨ v.toNat = 7)) ∨ r = 2 ∨ r = 6 ∨ r = 7 ∨
        (r = 31 ∧ (v.toNat = 2 ∨ v.toNat = 3 ∨ v.toNat = 4 ∨ v.toNat = 6)) := by omega
  · rcases hv with hv | hv | hv | hv <;> rw [hv] <;> rfl
  · rfl
  · rfl
  · rfl
  · rcases hv with hv | hv | hv | hv <;> rw [hv] <;> rfl

theorem decodeControl_illegal {o : Byte} (ho : ¬ IsControlOp o) (rest : List Byte) :
    decodeControl o rest = .illegal .controlOp := by
  have hlt := o.isLt
  simp only [IsControlOp, BitVec.le_def, ← BitVec.toNat_inj, BitVec.reduceToNat] at ho
  unfold decodeControl
  split
  case h_6 => rfl
  all_goals
    exfalso
    omega

/-! ### The group bytes in front of them -/

/-- The first bytes that R92 lists are two of row 1, one of row 4, row 7, and row 31 without 0xFB and 0xFF. -/
theorem decode_illegalFirst {b0 : Byte} (h : IsIllegalFirst b0) (rest : List Byte) :
    decode (b0 :: rest) = .illegal .firstByte := by
  obtain ⟨r, hr, v, rfl⟩ := exists_opcode b0
  have hlt := v.isLt
  simp only [IsIllegalFirst, BitVec.le_def, ← BitVec.toNat_inj, opcode_toNat hr, BitVec.reduceToNat] at h
  simp only [decode, decodeSingle, rowField_opcode hr, lowField_opcode hr]
  obtain ⟨rfl, hv⟩ | ⟨rfl, hv⟩ | rfl | ⟨rfl, hv⟩ : (r = 1 ∧ (v.toNat = 0 ∨ v.toNat = 1)) ∨
      (r = 4 ∧ v.toNat = 7) ∨ r = 7 ∨ (r = 31 ∧ v.toNat ≠ 3 ∧ v.toNat ≠ 7) := by omega
  · rcases hv with hv | hv <;> cases field_eq hv <;> rfl
  · cases field_eq hv
    rfl
  · rfl
  · obtain hv | hv | hv | hv | hv | hv : v.toNat = 0 ∨ v.toNat = 1 ∨ v.toNat = 2 ∨ v.toNat = 4 ∨ v.toNat = 5 ∨
        v.toNat = 6 := by omega
    all_goals
      cases field_eq hv
      rfl

theorem decode_source (m : Mode) (o : Byte) (rest : List Byte) :
    decode ((0xE0 ||| m.code) :: (m.ext ++ o :: rest)) = decodeSource m o rest := by
  cases m <;> (rw [Mode.code]; rfl)

theorem decode_dest (m : Mode) (o : Byte) (rest : List Byte) :
    decode ((0xF0 ||| m.code) :: (m.ext ++ o :: rest)) = decodeDest m o rest := by
  cases m <;> (rw [Mode.code]; rfl)

theorem decode_register (g : Reg) (o : Byte) (rest : List Byte) :
    decode ((0xE8 ||| g.code) :: o :: rest) = decodeRegister (lowField g.code) o rest := by
  cases g <;> rfl

/-- A group byte, with or without its extension byte, asks for one more byte. -/
theorem decode_mode_more (m : Mode) {k : Nat} (hk : k ≤ m.ext.length) :
    decode ((0xE0 ||| m.code) :: m.ext.take k) = .more ∧ decode ((0xF0 ||| m.code) :: m.ext.take k) = .more := by
  have hk : k ≤ 1 := hk.trans (Laws.mode_ext_length m)
  cases m <;> rw [Mode.code] <;> interval_cases k <;> exact ⟨rfl, rfl⟩

/-- A register with a number of 4 or more is no pair operand (R90). -/
theorem Reg.getLsbD_code_of_four_le (g : Reg) : 4 ≤ g.code → (lowField g.code).getLsbD 2 = true := by
  cases g <;> decide

theorem Reg.lowField_code_ne_zero (g : Reg) : g ≠ .a → lowField g.code ≠ 0 := by
  cases g <;> decide

/-- Settles O3: behind its group byte each operation byte is looked up in the table of its group, and the byte that
fails to match is the last one looked at. -/
theorem illegalEncodings : Obligations.IllegalEncodings := by
  refine ⟨fun _ rest h => decode_illegalFirst h rest, fun m o rest h => ?_, fun m o rest h => ?_, fun g o rest h => ?_,
    fun g o rest hg h => ?_, fun g rest hg => ?_, fun o rest h => decodeControl_illegal h rest,
    fun m => ⟨fun k hk => (decode_mode_more m hk).1, fun k hk => (decode_mode_more m hk).2⟩, fun g => ?_, rfl, rfl⟩
  · rw [decode_source, decodeSource_illegal h]
  · rw [decode_dest, decodeDest_illegal h]
  · rw [decode_register, decodeRegister_illegal h]
  · rw [decode_register, decodeRegister_pairOperand h (Reg.getLsbD_code_of_four_le g hg)]
  · rw [decode_register]
    exact if_neg (Reg.lowField_code_ne_zero g hg)
  · cases g <;> rfl

end Sys2Proof
end

section
/-! ## The addressing modes (R78 to R85) -/

namespace Sys2Proof.Machine

/-- An address and a displacement: the sum of an unsigned and a signed number (R82). -/
theorem add_sext16 (a : Word) (d : Byte) : a + sext16 d = BitVec.ofInt 16 (a.toNat + d.toInt) := by
  rw [BitVec.ofInt_add, BitVec.ofInt_natCast, BitVec.ofNat_toNat, BitVec.setWidth_eq]
  rfl

/-- Settles O12: each mode by its equation, the side effect on HL by the write of a pair. -/
theorem addressingModes : Obligations.AddressingModes := by
  intro s
  refine ⟨fun x => rfl, rfl, rfl, rfl, fun d => ?_, ?_, ⟨rfl, s.pair_setPair_self .hl _, s.sameBut_resolve .hlInc⟩,
    rfl, s.pair_setPair_self .hl _, s.sameBut_resolve .hlDec⟩
  · rw [State.resolve, add_sext16]
  · rw [State.resolve, add_sext16]

end Sys2Proof.Machine
end

section
/-! ## Transfers (R96 to R130) -/

namespace Sys2Proof

/-! ### Immediate words, and the two registers of a pair -/

/-- The bytes of an immediate word, the low one first (R52). -/
theorem wordBytes_append (m n : Byte) : [loByte (m ++ n), hiByte (m ++ n)] = [n, m] := by
  rw [loByte_append, hiByte_append]

/-- Two pairs share no register (R24). -/
theorem Pair.halves_ne {p q : Pair} (h : q ≠ p) : q.lo ≠ p.lo ∧ q.lo ≠ p.hi ∧ q.hi ≠ p.lo ∧ q.hi ≠ p.hi := by
  cases p <;> cases q <;> simp_all [Pair.lo, Pair.hi]

end Sys2Proof

namespace Sys2Proof.Machine

theorem State.loByte_pair (s : State) (p : Pair) : loByte (s.pair p) = s.reg p.lo := loByte_joinBytes _ _

theorem State.hiByte_pair (s : State) (p : Pair) : hiByte (s.pair p) = s.reg p.hi := hiByte_joinBytes _ _

/-- A pair written is the pair read, and no other pair changes (R24). -/
theorem State.pair_setPair (s : State) (p q : Pair) (v : Word) :
    (s.setPair p v).pair q = if q = p then v else s.pair q := by
  by_cases h : q = p
  · rw [if_pos h, h, s.pair_setPair_self]
  · obtain ⟨hll, hlh, hhl, hhh⟩ := Pair.halves_ne h
    simp only [State.pair, State.reg_setPair, if_neg h, if_neg hll, if_neg hlh, if_neg hhl, if_neg hhh]

/-! ### What each transfer does, given its address (R96) -/

/-- JF may be written on both sides, where the frame so far keeps the flags. -/
theorem SameBut.moved {s t : State} {regs : List Reg} {cells : List Word} {acc : List BusAccess}
    (h : SameBut s t regs cells acc) :
    SameBut { s with flags := { s.flags with jf := true } } t.moved regs cells acc := by
  have hf := h.setFlags (moveFlags t.flags)
  rw [h.flags] at hf
  rw [State.moved, h.flags]
  exact hf

/-- A load into a register. -/
theorem State.loadReg_frame (s : State) (r : Reg) (v : Byte) : (s.loadReg r v).reg r = v ∧
    SameBut { s with flags := { s.flags with jf := true, zf := decide (v = 0) } } (s.loadReg r v) [r] [] [] :=
  ⟨s.reg_loadReg_self r v, s.sameBut_loadReg r v⟩

/-- A byte read into a register. -/
theorem State.Plain.loadReg_memRead_frame {u : State} (hu : u.Plain) (a : Word) (r : Reg) :
    ((u.memRead a).2.loadReg r (u.memRead a).1).reg r = u.peek a ∧
      SameBut { u with flags := { u.flags with jf := true, zf := decide (u.peek a = 0) } }
        ((u.memRead a).2.loadReg r (u.memRead a).1) [r] [] [.read a (u.peek a)] := by
  have hread := u.sameBut_memRead a (hu.served a)
  obtain ⟨hreg, hload⟩ := State.loadReg_frame (u.memRead a).2 r (u.peek a)
  rw [State.memRead_flags] at hload
  rw [hu.memRead]
  exact ⟨hreg, (hread.setFlags _).trans hload⟩

/-- A byte read, and stored at another address. -/
theorem State.Plain.store_memRead_frame {u : State} (hu : u.Plain) (a b : Word) :
    ((u.memRead a).2.store b (u.memRead a).1).peek b = u.peek a ∧
      SameBut { u with flags := { u.flags with jf := true } } ((u.memRead a).2.store b (u.memRead a).1)
        [] [b] [.read a (u.peek a), .write b (u.peek a)] := by
  have hread := u.sameBut_memRead a (hu.served a)
  obtain ⟨hpeek, hstore⟩ := (hread.plain hu).store_frame b (u.peek a)
  rw [State.memRead_flags] at hstore
  rw [hu.memRead]
  exact ⟨hpeek, (hread.setFlags _).trans hstore⟩

/-- A word read into a pair. -/
theorem State.Plain.loadPair_memRead16_frame {u : State} (hu : u.Plain) (a : Word) (p : Pair) :
    ((u.memRead16 a).2.loadPair p (u.memRead16 a).1).pair p = u.peek (a + 1) ++ u.peek a ∧
      SameBut { u with flags := { u.flags with jf := true } } ((u.memRead16 a).2.loadPair p (u.memRead16 a).1)
        [p.lo, p.hi] [] [.read a (u.peek a), .read (a + 1) (u.peek (a + 1))] := by
  obtain ⟨hpair, hload⟩ := State.loadPair_frame (u.memRead16 a).2 p (u.memRead16 a).1
  rw [State.memRead16_flags] at hload
  exact ⟨hpair.trans (hu.memRead16 a), ((hu.sameBut_memRead16 a).setFlags _).trans hload⟩

/-- A pair stored: its low register, then its high one. -/
theorem State.Plain.store16_pair_frame {u : State} (hu : u.Plain) (a : Word) (p : Pair) :
    (u.store16 a (u.pair p)).peek a = u.reg p.lo ∧ (u.store16 a (u.pair p)).peek (a + 1) = u.reg p.hi ∧
      SameBut { u with flags := { u.flags with jf := true } } (u.store16 a (u.pair p)) [] [a, a + 1]
        [.write a (u.reg p.lo), .write (a + 1) (u.reg p.hi)] := by
  rw [← u.loByte_pair, ← u.hiByte_pair]
  exact hu.store16_frame a (u.pair p)

/-- An immediate word stored. -/
theorem State.Plain.store16_append_frame {u : State} (hu : u.Plain) (a : Word) (m n : Byte) :
    (u.store16 a (m ++ n)).peek a = n ∧ (u.store16 a (m ++ n)).peek (a + 1) = m ∧
      SameBut { u with flags := { u.flags with jf := true } } (u.store16 a (m ++ n)) [] [a, a + 1]
        [.write a n, .write (a + 1) m] := by
  simpa only [loByte_append, hiByte_append] using hu.store16_frame a (m ++ n)

/-! ### Exchanges (R121 to R123) -/

/-- Two registers exchanged. -/
theorem State.exchangeReg_frame (s : State) (r g : Reg) :
    ((s.setReg r (s.reg g)).setReg g (s.reg r)).moved.reg r = s.reg g ∧
      ((s.setReg r (s.reg g)).setReg g (s.reg r)).moved.reg g = s.reg r ∧
      SameBut { s with flags := { s.flags with jf := true } } ((s.setReg r (s.reg g)).setReg g (s.reg r)).moved
        [r, g] [] [] := by
  refine ⟨?_, ?_, ((s.sameBut_setReg r (s.reg g)).trans (State.sameBut_setReg _ g (s.reg r))).moved⟩
  · rw [State.reg_moved, State.reg_setReg, State.reg_setReg_self]
    split
    · next heq => rw [heq]
    · rfl
  · rw [State.reg_moved, State.reg_setReg_self]

/-- Two pairs exchanged. -/
theorem State.exchangePair_frame (s : State) (p q : Pair) :
    ((s.setPair p (s.pair q)).setPair q (s.pair p)).moved.pair p = s.pair q ∧
      ((s.setPair p (s.pair q)).setPair q (s.pair p)).moved.pair q = s.pair p ∧
      SameBut { s with flags := { s.flags with jf := true } } ((s.setPair p (s.pair q)).setPair q (s.pair p)).moved
        [p.lo, p.hi, q.lo, q.hi] [] [] := by
  refine ⟨?_, ?_, ((s.sameBut_setPair p (s.pair q)).trans (State.sameBut_setPair _ q (s.pair p))).moved⟩
  · rw [State.pair_moved, State.pair_setPair, State.pair_setPair_self]
    split
    · next heq => rw [heq]
    · rfl
  · rw [State.pair_moved, State.pair_setPair_self]

/-- A register exchanged with a byte of memory. -/
theorem State.Plain.exchangeMem_frame {u : State} (hu : u.Plain) (a : Word) (r : Reg) :
    let t := (((u.memRead a).2.memWrite a ((u.memRead a).2.reg r)).setReg r (u.memRead a).1).moved
    t.reg r = u.peek a ∧ t.peek a = u.reg r ∧
      SameBut { u with flags := { u.flags with jf := true } } t [r] [a] [.read a (u.peek a), .write a (u.reg r)] := by
  intro t
  have hread := u.sameBut_memRead a (hu.served a)
  have hplain := hread.plain hu
  have hwrite := hread.trans ((u.memRead a).2.sameBut_memWrite a (u.reg r) hplain.2.1)
  have hset := State.sameBut_setReg ((u.memRead a).2.memWrite a (u.reg r)) r (u.peek a)
  have ht : t = (((u.memRead a).2.memWrite a (u.reg r)).setReg r (u.peek a)).moved := by
    simp only [t, State.reg_memRead, hu.memRead]
  rw [ht]
  refine ⟨?_, ?_, (hwrite.trans hset).moved⟩
  · rw [State.reg_moved, State.reg_setReg_self]
  · rw [State.peek_moved, hset.peek_eq (hwrite.plain hu).1 a (by simp), hplain.peek_memWrite_self]

/-! ### The stack (R124 to R127) -/

/-- A pair pushed: its high register, then its low one. -/
theorem State.Plain.push16_pair_frame {s : State} (h : s.Plain) (p : Pair) :
    (s.push16 (s.pair p)).peek (s.sp - 1) = s.reg p.hi ∧ (s.push16 (s.pair p)).peek (s.sp - 2) = s.reg p.lo ∧
      SameBut { s with sp := s.sp - 2 } (s.push16 (s.pair p)) [] [s.sp - 1, s.sp - 2]
        [.write (s.sp - 1) (s.reg p.hi), .write (s.sp - 2) (s.reg p.lo)] := by
  have hne : s.sp - 1 ≠ s.sp - 2 := by bv_omega
  rw [← s.loByte_pair, ← s.hiByte_pair]
  refine ⟨?_, ?_, h.sameBut_push16 (s.pair p)⟩
  · rw [h.peek_push16, if_neg hne, if_pos rfl]
  · rw [h.peek_push16, if_pos rfl]

/-- A pair popped. -/
theorem State.Plain.setPair_pop16_frame {s : State} (h : s.Plain) (p : Pair) :
    (s.pop16.2.setPair p s.pop16.1).pair p = s.peek (s.sp + 1) ++ s.peek s.sp ∧
      SameBut { s with sp := s.sp + 2 } (s.pop16.2.setPair p s.pop16.1) [p.lo, p.hi] []
        [.read s.sp (s.peek s.sp), .read (s.sp + 1) (s.peek (s.sp + 1))] :=
  ⟨(State.pair_setPair_self _ p _).trans h.pop16, h.sameBut_pop16.trans (State.sameBut_setPair _ p _)⟩

/-- The PSW popped. -/
theorem State.Plain.setPsw_pop8_frame {s : State} (h : s.Plain) :
    SameBut { s with
      sp := s.sp + 1
      flags := flagsOfPsw (s.peek s.sp)
      rbs := s.bankAfterPsw (s.peek s.sp) } (s.pop8.2.setPsw s.pop8.1) [] [] [.read s.sp (s.peek s.sp)] := by
  rw [h.pop8]
  exact h.sameBut_pop8.setPsw (s.peek s.sp)

/-- The PSW popped right after it is pushed: the flags, the bank and SP are as before (R28, R29). -/
theorem State.Plain.setPsw_pop8_push8 {s : State} (h : s.Plain) :
    let t := s.push8 s.getPsw
    (t.pop8.2.setPsw t.pop8.1).flags = s.flags ∧ (t.pop8.2.setPsw t.pop8.1).rbs = s.rbs ∧
      (t.pop8.2.setPsw t.pop8.1).sp = s.sp := by
  intro t
  have hpush : SameBut { s with sp := s.sp - 1 } t [] [s.sp - 1] [.write (s.sp - 1) s.getPsw] :=
    h.sameBut_push8 s.getPsw
  have hpop := (hpush.plain h).setPsw_pop8_frame
  have hsp : t.sp = s.sp - 1 := hpush.sp
  have htop : t.peek t.sp = s.getPsw := by rw [hsp, h.peek_push8, if_pos rfl]
  have hbank : t.bankAfterPsw s.getPsw = s.rbs := by
    rw [← s.bankAfterPsw_getPsw]
    simp only [State.bankAfterPsw, hpush.params, hpush.rbs]
  refine ⟨?_, ?_, ?_⟩
  · rw [hpop.flags, htop, flagsOfPsw_getPsw]
  · rw [hpop.rbs, htop, hbank]
  · rw [hpop.sp, hsp, BitVec.sub_add_cancel]

/-! ### The transfer instructions -/

/-- Settles O14: one read into a register, where the mode leads. -/
theorem loadByte : Obligations.LoadByte := by
  intro s h
  refine ⟨fun x => ⟨rfl, _, rfl, h.loadReg_memRead_frame (zext16 x) .a⟩,
    ⟨rfl, _, rfl, h.loadReg_memRead_frame (s.pair .hl) .a⟩, fun r m => ⟨rfl, _, rfl, ?_⟩⟩
  simpa only [h.peek_resolve, State.resolve_flags] using
    (h.resolve m).loadReg_memRead_frame (s.resolve m).1 r

/-- Settles O15: each of the eight is one store, of a byte read after the address is resolved. -/
theorem storeByte : Obligations.StoreByte := by
  intro s h
  have hdst (m : Mode) (v : Byte) := (h.resolve m).store_frame (s.resolve m).1 v
  simp only [State.resolve_flags] at hdst
  exact ⟨fun x => ⟨rfl, _, rfl, h.store_frame (zext16 x) (s.reg .a)⟩,
    ⟨rfl, _, rfl, h.store_frame (s.pair .hl) (s.reg .a)⟩,
    fun m r => ⟨rfl, _, rfl, hdst m ((s.resolve m).2.reg r)⟩,
    fun x n => ⟨rfl, _, rfl, h.store_frame (zext16 x) n⟩,
    fun n => ⟨rfl, _, rfl, h.store_frame (s.pair .hl) n⟩,
    fun m n => ⟨rfl, _, rfl, hdst m n⟩,
    fun x => ⟨rfl, _, rfl, h.store_frame (zext16 x) 0⟩,
    ⟨rfl, _, rfl, h.store_frame (s.pair .hl) 0⟩⟩

/-- Settles O16: a read where the mode leads, then a store; the read leaves HL. -/
theorem moveByte : Obligations.MoveByte := by
  intro s h
  have hsrc (m : Mode) (b : Word) := (h.resolve m).store_memRead_frame (s.resolve m).1 b
  simp only [h.peek_resolve, State.resolve_flags] at hsrc
  refine ⟨fun x y => ⟨rfl, _, rfl, h.store_memRead_frame (zext16 y) (zext16 x)⟩,
    fun x m => ⟨rfl, _, rfl, hsrc m (zext16 x)⟩, fun m => ⟨rfl, _, rfl, ?_⟩⟩
  rw [State.pair_memRead]
  exact hsrc m ((s.resolve m).2.pair .hl)

/-- Settles O18: a word read where the mode leads, into the pair. -/
theorem loadWord : Obligations.LoadWord := by
  intro s rr m h
  refine ⟨rfl, _, rfl, ?_⟩
  simpa only [h.peek_resolve, State.resolve_flags] using
    (h.resolve m).loadPair_memRead16_frame (s.resolve m).1 rr

/-- Settles O19: a word store, of a pair read after the address is resolved or of an immediate word. -/
theorem storeWord : Obligations.StoreWord := by
  intro s h
  refine ⟨fun m rr => ⟨rfl, _, rfl, ?_⟩,
    fun x n m => ⟨congrArg ([0x24, x] ++ ·) (wordBytes_append m n), _, rfl, h.store16_append_frame (zext16 x) m n⟩,
    fun n m => ⟨congrArg (0x25 :: ·) (wordBytes_append m n), _, rfl, h.store16_append_frame (s.pair .hl) m n⟩⟩
  simpa only [State.resolve_flags] using (h.resolve m).store16_pair_frame (s.resolve m).1 rr

/-- Settles O20: both sides are read before either is written, so they change places. -/
theorem exchange : Obligations.Exchange := by
  intro s
  refine ⟨fun r g => ⟨rfl, _, rfl, s.exchangeReg_frame r g⟩,
    fun rr gg => ⟨rfl, _, rfl, s.exchangePair_frame rr gg⟩, fun r m h => ⟨rfl, _, rfl, ?_⟩⟩
  simpa only [h.peek_resolve, State.resolve_flags] using (h.resolve m).exchangeMem_frame (s.resolve m).1 r

/-- Settles O21: a push of the two halves, and a pop into them. -/
theorem pushPopPair : Obligations.PushPopPair := by
  exact fun s gg h => ⟨⟨rfl, _, rfl, h.push16_pair_frame gg⟩, ⟨rfl, _, rfl, h.setPair_pop16_frame gg⟩⟩

/-- Settles O22: the byte that PUSH PSW stores is the byte that POP PSW reads back. -/
theorem pushPopPsw : Obligations.PushPopPsw := by
  intro s h
  refine ⟨⟨rfl, _, rfl, ?_, h.sameBut_push8 s.getPsw, _, rfl, h.setPsw_pop8_push8⟩,
    ⟨rfl, _, rfl, h.setPsw_pop8_frame⟩⟩
  rw [h.peek_push8, if_pos rfl]

/-- Settles O13: the four forms load a register with a value read before the write. -/
theorem loadRegister : Obligations.LoadRegister := by
  exact fun s => ⟨fun r => ⟨rfl, _, rfl, s.loadReg_frame .a (s.reg r)⟩,
    fun r => ⟨rfl, _, rfl, s.loadReg_frame r (s.reg .a)⟩, fun r n => ⟨rfl, _, rfl, s.loadReg_frame r n⟩,
    fun r g => ⟨rfl, _, rfl, s.loadReg_frame r (s.reg g)⟩⟩

/-- Settles O17: the three forms load a pair with a value read before the write. -/
theorem loadPair : Obligations.LoadPair := by
  exact fun s => ⟨fun rr n m => ⟨congrArg ((0x14 ||| rr.code) :: ·) (wordBytes_append m n), _, rfl,
      s.loadPair_frame rr (m ++ n)⟩,
    fun rr gg => ⟨rfl, _, rfl, s.loadPair_frame rr (s.pair gg)⟩,
    fun gg => ⟨rfl, _, rfl, s.loadPair_frame gg s.sp⟩⟩

/-- Settles O23: SP is written beside JF, and no register, byte or bus access. -/
theorem loadStackPointer : Obligations.LoadStackPointer := by
  exact fun s => ⟨fun n m => ⟨congrArg ([0xFF, 0xFA] ++ ·) (wordBytes_append m n), _, rfl,
      (SameBut.refl s).moved.withSp (m ++ n)⟩,
    fun gg => ⟨rfl, _, rfl, (SameBut.refl s).moved.withSp (s.pair gg)⟩⟩

end Sys2Proof.Machine
end

section
/-! ## The results and flags of the ALU, at any width (R131 to R140) -/

namespace Sys2Proof.Machine

/-- The low nibble of R131, by its mask. -/
theorem nibble_eq_and {w : Nat} (hw : 4 ≤ w) (a : BitVec w) : nibble a = (a &&& 15#w).toNat := by
  have hlt : 15 < 2 ^ w := calc
    15 < 2 ^ 4 := by decide
    _ ≤ 2 ^ w := Nat.pow_le_pow_right (by decide) hw
  rw [BitVec.toNat_and, BitVec.toNat_ofNat, Nat.mod_eq_of_lt hlt]
  exact (Nat.and_two_pow_sub_one_eq_mod a.toNat 4).symm

/-- The carry out of a sum is the top bit of the sum on one bit more. -/
theorem getLsbD_top {w : Nat} (s : BitVec (w + 1)) : s.getLsbD w = decide (2 ^ w ≤ s.toNat) := by
  have h := s.msb_eq_decide
  rwa [BitVec.msb_eq_getLsbD_last, Nat.add_sub_cancel] at h

/-- A sum with its flags, from the sum on one bit more (R132, R133). -/
theorem addFlags_eq {w : Nat} (hw : 4 ≤ w) {a b : BitVec w} {c : Nat} {s : BitVec (w + 1)}
    (hs : s.toNat = a.toNat + b.toNat + c) :
    addFlags a b c = (s.setWidth w,
      { jf := s.getLsbD w, zf := decide (s.setWidth w = 0), cf := s.getLsbD w,
        hf := decide ((a &&& 15#w).toNat + (b &&& 15#w).toNat + c > 15) }) := by
  have hsum : BitVec.ofNat w (a.toNat + b.toNat + c) = s.setWidth w := by rw [← hs, BitVec.ofNat_toNat]
  simp only [addFlags, hsum, getLsbD_top, hs, nibble_eq_and hw, isZero, gt_iff_lt]

theorem toNat_add_setWidth {w : Nat} (a b : BitVec w) :
    (a.setWidth (w + 1) + b.setWidth (w + 1)).toNat = a.toNat + b.toNat := by
  have ha := a.isLt
  have hb := b.isLt
  rw [BitVec.toNat_add, BitVec.toNat_setWidth_of_le w.le_succ, BitVec.toNat_setWidth_of_le w.le_succ]
  exact Nat.mod_eq_of_lt (by rw [Nat.pow_succ]; omega)

/-- With a carry in, the sum still fits one bit more. -/
theorem toNat_add_setWidth_ofBool {w : Nat} (a b : BitVec w) (c : Bool) :
    (a.setWidth (w + 1) + b.setWidth (w + 1) + (BitVec.ofBool c).setWidth (w + 1)).toNat =
      a.toNat + b.toNat + c.toNat := by
  have ha := a.isLt
  have hb := b.isLt
  have hc := c.toNat_le
  rw [BitVec.toNat_add, toNat_add_setWidth, BitVec.toNat_setWidth_of_le (Nat.le_add_left 1 w), BitVec.toNat_ofBool]
  exact Nat.mod_eq_of_lt (by rw [Nat.pow_succ]; omega)

theorem ofInt_eq_zero_iff {w : Nat} (t : Int) : BitVec.ofInt w t = 0 ↔ t % (2 ^ w : Nat) = 0 := by
  have hnonneg : 0 ≤ t % (2 ^ w : Nat) := Int.emod_nonneg t (by positivity)
  rw [← BitVec.toNat_inj, BitVec.toNat_ofInt, BitVec.ofNat_eq_ofNat, BitVec.toNat_ofNat, Nat.zero_mod]
  omega

/-- A difference with its flags, from the difference of the integers (R134, R135). -/
theorem subFlags_eq {w : Nat} (hw : 4 ≤ w) (a b : BitVec w) (c : Nat) :
    let t : Int := (a.toNat : Int) - b.toNat - c
    subFlags a b c = (BitVec.ofInt w t,
      { jf := decide (t < 0), zf := decide (t % (2 ^ w : Nat) = 0), cf := decide (t < 0),
        hf := decide (((a &&& 15#w).toNat : Int) - (b &&& 15#w).toNat - c < 0) }) := by
  intro t
  have hdiff : a - b - BitVec.ofNat w c = BitVec.ofInt w t := by
    simp only [t, Int.sub_eq_add_neg, BitVec.ofInt_add, BitVec.ofInt_neg, BitVec.ofInt_natCast, BitVec.ofNat_toNat,
      BitVec.setWidth_eq, BitVec.sub_eq_add_neg]
  have hborrow : a.toNat < b.toNat + c ↔ t < 0 := by omega
  have hhalf : nibble a < nibble b + c ↔ (nibble a : Int) - nibble b - c < 0 := by omega
  simp only [subFlags, hdiff, isZero, ofInt_eq_zero_iff, hborrow, hhalf, ← nibble_eq_and hw]

/-- A difference without a borrow in is negative where the first operand is the smaller (R135). -/
theorem subFlags_zero_eq {w : Nat} (hw : 4 ≤ w) (a b : BitVec w) :
    let t : Int := (a.toNat : Int) - b.toNat
    subFlags a b 0 = (BitVec.ofInt w t,
      { jf := decide (a < b), zf := decide (t % (2 ^ w : Nat) = 0), cf := decide (a < b),
        hf := decide (a &&& 15#w < b &&& 15#w) }) := by
  intro t
  have h := subFlags_eq hw a b 0
  simpa only [Int.natCast_zero, Int.sub_zero, sub_lt_zero, Int.ofNat_lt, ← BitVec.lt_def] using h

/-- The flags of a comparison (R139). -/
theorem cmpFlags_snd {w : Nat} (hw : 4 ≤ w) (a b : BitVec w) :
    (cmpFlags a b).2 =
      { jf := decide (a = b), zf := decide (a = b), cf := decide (a < b), hf := decide (a &&& 15#w < b &&& 15#w) } := by
  have hzero : isZero (a - b - BitVec.ofNat w 0) = decide (a = b) := by
    rw [isZero, BitVec.sub_zero, decide_eq_decide]
    exact sub_eq_zero
  simp only [cmpFlags, subFlags, hzero, Nat.add_zero, nibble_eq_and hw, ← BitVec.lt_def]

/-- ADDC is the sum with CF taken in (R132). -/
theorem aluOf_addc {w : Nat} (f : Flags) (a b : BitVec w) : aluOf .addc f a b = addFlags a b f.cf.toNat := by
  rw [aluOf, carryIn_eq_toNat]

/-- SUBB is the difference with CF taken off (R134). -/
theorem aluOf_subb {w : Nat} (f : Flags) (a b : BitVec w) : aluOf .subb f a b = subFlags a b f.cf.toNat := by
  rw [aluOf, carryIn_eq_toNat]

/-- Settles O24: each operation by its equation, at 8 bits. -/
theorem aluFunctions : Obligations.AluFunctions := by
  intro f a b
  have hw : 4 ≤ 8 := by decide
  exact ⟨(aluOf_addc f a b).trans (addFlags_eq hw (toNat_add_setWidth_ofBool a b f.cf)),
    addFlags_eq hw (toNat_add_setWidth a b), (aluOf_subb f a b).trans (subFlags_eq hw a b f.cf.toNat),
    subFlags_zero_eq hw a b, rfl, rfl, rfl, cmpFlags_snd hw a b⟩

/-- Settles O25: the same equations at 16 bits. -/
theorem aluFunctions16 : Obligations.AluFunctions16 := by
  intro f a b
  have hw : 4 ≤ 16 := by decide
  exact ⟨(aluOf_addc f a b).trans (addFlags_eq hw (toNat_add_setWidth_ofBool a b f.cf)),
    addFlags_eq hw (toNat_add_setWidth a b), (aluOf_subb f a b).trans (subFlags_eq hw a b f.cf.toNat),
    subFlags_zero_eq hw a b, rfl, rfl, rfl, cmpFlags_snd hw a b⟩

end Sys2Proof.Machine
end

section
/-! ## The ALU instructions (R141 to R151) -/

namespace Sys2Proof

/-- The number of an ALU operation, in an opcode byte (R76). -/
def AluOp.code : AluOp → Byte
  | .addc => 0 | .add => 1 | .subb => 2 | .sub => 3 | .and => 4 | .xor => 5 | .or => 6 | .cmp => 7

theorem AluOp.code_ofField : ∀ k : BitVec 3, (AluOp.ofField k).code = k.setWidth 8 := by decide

end Sys2Proof

namespace Sys2Proof.Machine

/-! ### Each operand form: its bytes and its meaning, for every operation -/

section
variable (op : AluOp) (g : Reg) (m : Mode) (gg : Pair) (n : Byte) (s : State)

theorem aluAN_form : encode (aluAN op n) = [0x70 ||| op.code, n] ∧ exec (aluAN op n) s = .next (s.aluReg op .a n) := by
  cases op <;> exact ⟨rfl, rfl⟩

theorem aluAX_form (x : Byte) : encode (aluAX op x) = [0x78 ||| op.code, x] ∧
    exec (aluAX op x) s = .next (s.aluAMem op (zext16 x)) := by
  cases op <;> exact ⟨rfl, rfl⟩

theorem aluASrc_form : encode (aluASrc op m) = (0xE0 ||| m.code) :: (m.ext ++ [0x78 ||| op.code]) ∧
    exec (aluASrc op m) s = .next (s.aluASrc op m) := by
  cases op <;> exact ⟨rfl, rfl⟩

theorem aluAG_form : encode (aluAG op g) = [0xE8 ||| g.code, 0x60 ||| op.code] ∧
    exec (aluAG op g) s = .next (s.aluReg op .a (s.reg g)) := by
  cases op <;> exact ⟨rfl, rfl⟩

theorem aluGA_form : encode (aluGA op g) = [0xE8 ||| g.code, 0x68 ||| op.code] ∧
    exec (aluGA op g) s = .next (s.aluReg op g (s.reg .a)) := by
  cases op <;> exact ⟨rfl, rfl⟩

theorem aluGN_form : encode (aluGN op g n) = [0xE8 ||| g.code, 0x70 ||| op.code, n] ∧
    exec (aluGN op g n) s = .next (s.aluReg op g n) := by
  cases op <;> exact ⟨rfl, rfl⟩

theorem aluSrcN_form : encode (aluSrcN op m n) = (0xE0 ||| m.code) :: (m.ext ++ [0x68 ||| op.code, n]) ∧
    exec (aluSrcN op m n) s = .next (s.aluSrcN op m n) := by
  cases op <;> exact ⟨rfl, rfl⟩

theorem aluSrcHl_form : encode (aluSrcHl op m) = (0xE0 ||| m.code) :: (m.ext ++ [0x60 ||| op.code]) ∧
    exec (aluSrcHl op m) s = .next (s.aluSrcHl op m) := by
  cases op <;> exact ⟨rfl, rfl⟩

theorem aluWaGg_form : encode (aluWaGg op gg) = [0xE8 ||| gg.code, 0x30 ||| op.code] ∧
    exec (aluWaGg op gg) s = .next (s.aluPair op .wa (s.pair gg)) := by
  cases op <;> exact ⟨rfl, rfl⟩

theorem aluGgMn_form (mn : Word) :
    encode (aluGgMn op gg mn) = [0xE8 ||| gg.code, 0x38 ||| op.code, loByte mn, hiByte mn] ∧
      exec (aluGgMn op gg mn) s = .next (s.aluPair op gg mn) := by
  cases op <;> exact ⟨rfl, rfl⟩

end

/-! ### The operations where a mode leads -/

/-- ALU A,(src): the mode changes neither A nor memory, so both are those before it (R143). -/
theorem State.Plain.aluASrc_frame {s : State} (h : s.Plain) (op : AluOp) (m : Mode) :
    let a := (s.resolve m).1
    let r := alu8 op s.flags (s.reg .a) (s.peek a)
    (s.aluASrc op m).reg .a = (if op = .cmp then s.reg .a else r.1) ∧
      SameBut { (s.resolve m).2 with flags := r.2 } (s.aluASrc op m) [.a] [] [.read a (s.peek a)] := by
  have hreg : (s.resolve m).2.reg .a = s.reg .a := (s.sameBut_resolve m).reg_eq h.1 .a (by decide)
  simpa only [State.aluASrc, h.peek_resolve, State.resolve_flags, hreg] using
    (h.resolve m).aluAMem_frame op (s.resolve m).1

/-- ALU (src),(HL): two reads, then the write back; the first read changes neither HL nor memory (R148). -/
theorem State.Plain.aluSrcHl_frame {s : State} (h : s.Plain) (op : AluOp) (m : Mode) :
    let a := (s.resolve m).1
    let hl := (s.resolve m).2.pair .hl
    let r := alu8 op s.flags (s.peek a) (s.peek hl)
    (s.aluSrcHl op m).peek a = (if op = .cmp then s.peek a else r.1) ∧
      SameBut { (s.resolve m).2 with flags := r.2 } (s.aluSrcHl op m) [] [a]
        (if op = .cmp then [.read a (s.peek a), .read hl (s.peek hl)]
          else [.read a (s.peek a), .read hl (s.peek hl), .write a r.1]) := by
  intro a hl r
  let u := (s.resolve m).2
  let v := (u.memRead a).2
  have hu : u.Plain := h.resolve m
  have hread : SameBut u v [] [] [.read a (s.peek a)] := h.peek_resolve m a ▸ u.sameBut_memRead a (hu.served a)
  have hv : v.Plain := hread.plain hu
  have hpeek (b : Word) : v.peek b = s.peek b := (u.peek_memRead a b).trans (h.peek_resolve m b)
  have hreadHl : SameBut v (v.memRead hl).2 [] [] [.read hl (s.peek hl)] :=
    hpeek hl ▸ v.sameBut_memRead hl (hv.served hl)
  have hboth := hread.trans hreadHl
  have hrun : s.aluSrcHl op m = (v.memRead hl).2.aluBack op a (s.peek a) (s.peek hl) := by
    rw [State.aluSrcHl, State.pair_memRead, hu.memRead, hv.memRead, h.peek_resolve, hpeek]
  obtain ⟨hbyte, hback⟩ :=
    (hboth.plain hu).aluBack_frame op a (s.peek a) (s.peek hl) ((v.peek_memRead hl a).trans (hpeek a))
  rw [hboth.flags, State.resolve_flags, ← hrun] at hbyte hback
  refine ⟨hbyte, ?_⟩
  have hall := (hboth.setFlags r.2).trans hback
  by_cases hc : op = .cmp
  · rw [if_pos hc] at hall ⊢
    exact hall
  · rw [if_neg hc] at hall ⊢
    exact hall

/-- MCMP and CMP (src),n store nothing (R149). -/
theorem State.Plain.aluSrcN_cmp_frame {s : State} (h : s.Plain) (m : Mode) (n : Byte) :
    let a := (s.resolve m).1
    SameBut { (s.resolve m).2 with flags := (alu8 .cmp s.flags (s.peek a) n).2 } (s.aluSrcN .cmp m n) [] []
      [.read a (s.peek a)] := by
  intro a
  have hu := h.resolve m
  have hread := ((s.resolve m).2.sameBut_memRead a (hu.served a)).setFlags (alu8 .cmp s.flags (s.peek a) n).2
  rw [h.peek_resolve] at hread
  have hrun : s.aluSrcN .cmp m n = ((s.resolve m).2.memRead a).2.setFlags (alu8 .cmp s.flags (s.peek a) n).2 := by
    rw [State.aluSrcN, State.aluBack, if_pos rfl, hu.memRead, h.peek_resolve, State.memRead_flags, State.resolve_flags]
  exact hrun ▸ hread

/-! ### The statements -/

/-- Settles O26: the four forms are one operation on a register, with the operand read before the write. -/
theorem aluRegister : Obligations.AluRegister := by
  intro s k op
  rw [← AluOp.code_ofField k]
  exact ⟨fun n => ⟨(aluAN_form op n s).1, _, (aluAN_form op n s).2, s.aluReg_frame op .a n⟩,
    fun g => ⟨(aluAG_form op g s).1, _, (aluAG_form op g s).2, s.aluReg_frame op .a (s.reg g)⟩,
    fun g => ⟨(aluGA_form op g s).1, _, (aluGA_form op g s).2, s.aluReg_frame op g (s.reg .a)⟩,
    fun g n => ⟨(aluGN_form op g n s).1, _, (aluGN_form op g n s).2, s.aluReg_frame op g n⟩⟩

/-- Settles O27: one read, at the direct address or where the mode leads, and the operation on A. -/
theorem aluMemoryOperand : Obligations.AluMemoryOperand := by
  intro s k h op
  rw [← AluOp.code_ofField k]
  exact ⟨fun x => ⟨(aluAX_form op s x).1, _, (aluAX_form op s x).2, h.aluAMem_frame op (zext16 x)⟩,
    fun m => ⟨(aluASrc_form op m s).1, _, (aluASrc_form op m s).2, h.aluASrc_frame op m⟩⟩

/-- Settles O28: the byte where the mode leads is read once, and written back once unless the operation compares. -/
theorem aluMemoryResult : Obligations.AluMemoryResult := by
  intro s m h a u v
  refine ⟨fun k n => ?_, fun k => ?_, fun n => ⟨rfl, _, rfl, h.aluSrcN_cmp_frame m n⟩⟩
  · rw [← AluOp.code_ofField k]
    obtain ⟨hbytes, hexec⟩ := aluSrcN_form (.ofField k) m n s
    exact ⟨hbytes, _, hexec, h.aluSrcN_frame (.ofField k) m n⟩
  · rw [← AluOp.code_ofField k]
    obtain ⟨hbytes, hexec⟩ := aluSrcHl_form (.ofField k) m s
    exact ⟨hbytes, _, hexec, h.aluSrcHl_frame (.ofField k) m⟩

/-- Settles O29: both forms are one operation on a pair, with the operand read before the write. -/
theorem aluPair : Obligations.AluPair := by
  intro s k gg op
  rw [← AluOp.code_ofField k]
  refine ⟨⟨(aluWaGg_form op gg s).1, _, (aluWaGg_form op gg s).2, s.aluPair_frame op .wa (s.pair gg)⟩,
    fun n m => ⟨?_, _, (aluGgMn_form op gg s (m ++ n)).2, s.aluPair_frame op gg (m ++ n)⟩⟩
  rw [(aluGgMn_form op gg s (m ++ n)).1, wordBytes_append]

end Sys2Proof.Machine
end

section
/-! ## Increment, decrement, multiply, divide and decimal adjust (R152 to R173) -/

namespace Sys2Proof.Machine

/-! ### An update whose flags depend on the result by ZF alone -/

section
variable {n : Nat} (zf : Bool → Flags)

/-- An update of a register with the result `n`, and with ZF of the result among the flags `zf`. -/
theorem State.updateReg_frame_zf (s : State) (r : Reg) (k : Flags → Byte → Byte × Flags)
    (hn : (k s.flags (s.reg r)).1.toNat = n) (hf : (k s.flags (s.reg r)).2 = zf (isZero (k s.flags (s.reg r)).1)) :
    let t := s.updateReg r k
    (t.reg r).toNat = n ∧ SameBut { s with flags := zf (decide (t.reg r = 0)) } t [r] [] [] := by
  intro t
  obtain ⟨hreg, hframe⟩ := s.updateReg_frame r k
  rw [hf] at hframe
  rw [hreg]
  exact ⟨hn, hframe⟩

theorem State.updatePair_frame_zf (s : State) (p : Pair) (k : Flags → Word → Word × Flags)
    (hn : (k s.flags (s.pair p)).1.toNat = n) (hf : (k s.flags (s.pair p)).2 = zf (isZero (k s.flags (s.pair p)).1)) :
    let t := s.updatePair p k
    (t.pair p).toNat = n ∧ SameBut { s with flags := zf (decide (t.pair p = 0)) } t [p.lo, p.hi] [] [] := by
  intro t
  obtain ⟨hpair, hframe⟩ := s.updatePair_frame p k
  rw [hf] at hframe
  rw [hpair]
  exact ⟨hn, hframe⟩

theorem State.Plain.updateMem_frame_zf {u : State} (hu : u.Plain) (a : Word) (k : Flags → Byte → Byte × Flags)
    (hn : (k u.flags (u.peek a)).1.toNat = n) (hf : (k u.flags (u.peek a)).2 = zf (isZero (k u.flags (u.peek a)).1)) :
    let t := u.updateMem a k
    (t.peek a).toNat = n ∧
      SameBut { u with flags := zf (decide (t.peek a = 0)) } t [] [a] [.read a (u.peek a), .write a (t.peek a)] := by
  intro t
  obtain ⟨hpeek, hframe⟩ := hu.updateMem_frame a k
  rw [hf, hpeek] at hframe
  rw [hpeek]
  exact ⟨hn, hframe⟩

end

/-! ### Increment and decrement (R152) -/

/-- The flags of INC and DEC: CF and HF are unchanged. -/
def countFlags (f : Flags) (j z : Bool) : Flags := { f with zf := z, jf := j }

theorem toNat_sub_one (v : Byte) : (v - 1).toNat = (v.toNat + 255) % 256 := by
  rw [BitVec.toNat_sub, Nat.add_comm]
  rfl

theorem toNat_sub_one_word (v : Word) : (v - 1).toNat = (v.toNat + 65535) % 65536 := by
  rw [BitVec.toNat_sub, Nat.add_comm]
  rfl

/-- INC of a byte of memory. -/
theorem State.Plain.incMem_frame {u : State} (hu : u.Plain) (a : Word) :
    let t := u.updateMem a incFlags
    (t.peek a).toNat = ((u.peek a).toNat + 1) % 256 ∧
      SameBut { u with flags := { u.flags with zf := decide (t.peek a = 0), jf := decide (u.peek a = 0xFF) } } t
        [] [a] [.read a (u.peek a), .write a (t.peek a)] :=
  hu.updateMem_frame_zf (countFlags u.flags _) a incFlags (BitVec.toNat_add _ _) rfl

/-- DEC of a byte of memory. -/
theorem State.Plain.decMem_frame {u : State} (hu : u.Plain) (a : Word) :
    let t := u.updateMem a decFlags
    (t.peek a).toNat = ((u.peek a).toNat + 255) % 256 ∧
      SameBut { u with flags := { u.flags with zf := decide (t.peek a = 0), jf := decide (u.peek a = 0) } } t
        [] [a] [.read a (u.peek a), .write a (t.peek a)] :=
  hu.updateMem_frame_zf (countFlags u.flags _) a decFlags (toNat_sub_one _) rfl

/-! ### Decimal adjust (R168, R171) -/

/-- The two corrections have no bit in common, so they add up. -/
theorem bcdCorrection_toNat_eq_add (f : Flags) (v : Byte) : (bcdCorrection f v).toNat =
    (if f.hf = true ∨ v.toNat % 16 > 9 then 0x06 else 0) + (if f.cf = true ∨ v.toNat > 0x99 then 0x60 else 0) := by
  rw [bcdCorrection_toNat decide_eq_true_iff.symm decide_eq_true_iff.symm]
  simp only [Bool.toNat, Bool.cond_decide, mul_ite, Nat.mul_one, Nat.mul_zero]

theorem bcdCarry_eq_decide (f : Flags) (v : Byte) : bcdCarry f v = decide (f.cf = true ∨ v.toNat > 0x99) :=
  bcdCarry_eq decide_eq_true_iff.symm

theorem daa_toNat (f : Flags) (v : Byte) : (daa f v).1.toNat = (v.toNat + (bcdCorrection f v).toNat) % 256 :=
  BitVec.toNat_add _ _

theorem das_toNat (f : Flags) (v : Byte) : (das f v).1.toNat = (v.toNat + 256 - (bcdCorrection f v).toNat) % 256 := by
  have hc := (bcdCorrection f v).isLt
  rw [das, BitVec.toNat_sub]
  omega

/-! ### The statements -/

/-- Settles O30: the result modulo its width, with the flags of R152. -/
theorem incDecRegister : Obligations.IncDecRegister := by
  exact fun s =>
    ⟨fun r => ⟨rfl, _, rfl, s.updateReg_frame_zf (countFlags s.flags _) r incFlags (BitVec.toNat_add _ _) rfl⟩,
    fun r => ⟨rfl, _, rfl, s.updateReg_frame_zf (countFlags s.flags _) r decFlags (toNat_sub_one _) rfl⟩,
    fun rr => ⟨rfl, _, rfl, s.updatePair_frame_zf (countFlags s.flags _) rr incFlags (BitVec.toNat_add _ _) rfl⟩,
    fun rr => ⟨rfl, _, rfl, s.updatePair_frame_zf (countFlags s.flags _) rr decFlags (toNat_sub_one_word _) rfl⟩⟩

/-- Settles O31: one read-modify-write, at a direct address, at HL, or where the mode leads. -/
theorem incDecMemory : Obligations.IncDecMemory := by
  intro s h inc dec
  have hinc (m : Mode) := (h.resolve m).incMem_frame (s.resolve m).1
  have hdec (m : Mode) := (h.resolve m).decMem_frame (s.resolve m).1
  simp only [h.peek_resolve, State.resolve_flags] at hinc hdec
  exact ⟨fun x => ⟨rfl, _, rfl, h.incMem_frame (zext16 x)⟩, ⟨rfl, _, rfl, h.incMem_frame (s.pair .hl)⟩,
    fun m => ⟨rfl, _, rfl, hinc m⟩, fun x => ⟨rfl, _, rfl, h.decMem_frame (zext16 x)⟩,
    ⟨rfl, _, rfl, h.decMem_frame (s.pair .hl)⟩, fun m => ⟨rfl, _, rfl, hdec m⟩⟩

/-- Settles O32: MUL W,A is the product of the halves of WA. -/
theorem multiply : Obligations.Multiply := by
  exact fun s => ⟨⟨rfl, _, rfl, s.mulPair_frame .wa⟩, fun gg => ⟨rfl, _, rfl, s.mulPair_frame gg⟩⟩

/-- Settles O33: DIV WA,C is the division of WA. -/
theorem divide : Obligations.Divide := by
  exact fun s => ⟨⟨rfl, _, rfl, s.divPair_frame .wa⟩, fun gg => ⟨rfl, _, rfl, s.divPair_frame gg⟩⟩

/-- Settles O34: each form updates a register by DAA or DAS, whose correction is the sum of the two digits'
corrections. -/
theorem decimalAdjust : Obligations.DecimalAdjust := by
  intro s corr carry daa das
  have hcorr (v : Byte) : (bcdCorrection s.flags v).toNat = corr v := bcdCorrection_toNat_eq_add s.flags v
  have hcarry (v : Byte) : bcdCarry s.flags v = carry v := bcdCarry_eq_decide s.flags v
  have hdaa (i : Instr) (g : Reg) (hexec : exec i s = .next (s.updateReg g Machine.daa)) : daa i g := by
    refine ⟨_, hexec, s.updateReg_frame_zf (fun z => ⟨_, z, _, _⟩) g Machine.daa ?_ ?_⟩
    · rw [daa_toNat, hcorr]
    · rw [← hcorr, ← hcarry]
      rfl
  have hdas (i : Instr) (g : Reg) (hexec : exec i s = .next (s.updateReg g Machine.das)) : das i g := by
    refine ⟨_, hexec, s.updateReg_frame_zf (fun z => ⟨_, z, _, _⟩) g Machine.das ?_ ?_⟩
    · rw [das_toNat, hcorr]
    · rw [← hcorr, ← hcarry]
      rfl
  exact ⟨⟨rfl, hdaa .daaA .a rfl⟩, fun g => ⟨rfl, hdaa (.daaG g) g rfl⟩, ⟨rfl, hdas .dasA .a rfl⟩,
    fun g => ⟨rfl, hdas (.dasG g) g rfl⟩⟩

end Sys2Proof.Machine
end

section
/-! ## Shifts, rotates and nibbles (R174 to R186) -/

namespace Sys2Proof.Machine

/-! ### Shifts and rotates (R174) -/

/-- A bit shifted in from the right. -/
theorem shiftLeft_or_toNat : ∀ (v : Byte) (b : Bool),
    ((v <<< 1) ||| (if b then 0x01 else 0)).toNat = v.toNat * 2 % 256 + b.toNat := by decide

/-- A bit shifted in from the left. -/
theorem shiftRight_or_toNat : ∀ (v : Byte) (b : Bool),
    ((v >>> 1) ||| (if b then 0x80 else 0)).toNat = v.toNat / 2 + 128 * b.toNat := by decide

theorem shlc_toNat (f : Flags) (v : Byte) : (shlc f v).1.toNat = v.toNat * 2 % 256 := by
  simpa [shlc, shiftFlags] using shiftLeft_or_toNat v false

theorem shrc_toNat (f : Flags) (v : Byte) : (shrc f v).1.toNat = v.toNat / 2 := by
  simpa [shrc, shiftFlags] using shiftRight_or_toNat v false

theorem rolc_toNat (p : Params) (f : Flags) (v : Byte) :
    (rolc p f v).1.toNat = v.toNat * 2 % 256 + (rotateFeed p f (v.getLsbD 7)).toNat :=
  shiftLeft_or_toNat v _

theorem rorc_toNat (p : Params) (f : Flags) (v : Byte) :
    (rorc p f v).1.toNat = v.toNat / 2 + 128 * (rotateFeed p f (v.getLsbD 0)).toNat :=
  shiftRight_or_toNat v _

theorem isZero_eq_toNat {w : Nat} (v : BitVec w) : isZero v = decide (v.toNat = 0) := by
  rw [isZero, decide_eq_decide, ← BitVec.toNat_inj, BitVec.ofNat_eq_ofNat, BitVec.toNat_ofNat, Nat.zero_mod]

/-- A shift or a rotate of a register, whose result is `n` and which shifts `out` out. -/
theorem State.shiftReg_frame (s : State) (g : Reg) (k : Flags → Byte → Byte × Flags) {out : Bool} {n : Nat}
    (hk : k s.flags (s.reg g) = shiftFlags s.flags out (k s.flags (s.reg g)).1)
    (hn : (k s.flags (s.reg g)).1.toNat = n) :
    ((s.updateReg g k).reg g).toNat = n ∧
      SameBut { s with flags := { s.flags with cf := out, zf := decide (n = 0), jf := out } } (s.updateReg g k)
        [g] [] [] := by
  obtain ⟨hreg, hframe⟩ := s.updateReg_frame g k
  rw [hk, shiftFlags, isZero_eq_toNat, hn] at hframe
  rw [hreg]
  exact ⟨hn, hframe⟩

/-! ### Nibbles (R183 to R186) -/

theorem append_nibbles_toNat (h l : BitVec 4) : (h ++ l : Byte).toNat = h.toNat * 16 + l.toNat := by
  rw [BitVec.toNat_append, ← Nat.shiftLeft_add_eq_or_of_lt l.isLt, Nat.shiftLeft_eq]

theorem lowNibble_toNat (v : Byte) : (v.setWidth 4 : BitVec 4).toNat = v.toNat % 16 := BitVec.toNat_setWidth _ _

theorem highNibble_toNat (v : Byte) : ((v >>> 4).setWidth 4 : BitVec 4).toNat = v.toNat / 16 := by
  have := v.isLt
  rw [BitVec.toNat_setWidth, BitVec.toNat_ushiftRight, Nat.shiftRight_eq_div_pow]
  omega

theorem swapNibbles_toNat (v : Byte) : (swapNibbles v).toNat = v.toNat % 16 * 16 + v.toNat / 16 := by
  rw [swapNibbles, append_nibbles_toNat, lowNibble_toNat, highNibble_toNat]

theorem rold_toNat (acc t : Byte) : (rold acc t).1.toNat = t.toNat % 16 * 16 + acc.toNat % 16 ∧
    (rold acc t).2.toNat = acc.toNat / 16 * 16 + t.toNat / 16 := by
  simp only [rold, append_nibbles_toNat, highNibble_toNat]
  simp only [lowNibble_toNat, and_self]

theorem rord_toNat (acc t : Byte) : (rord acc t).1.toNat = acc.toNat % 16 * 16 + t.toNat / 16 ∧
    (rord acc t).2.toNat = acc.toNat / 16 * 16 + t.toNat % 16 := by
  simp only [rord, append_nibbles_toNat, highNibble_toNat]
  simp only [lowNibble_toNat, and_self]

/-- SWAP of a register. -/
theorem State.swapReg_frame (s : State) (g : Reg) :
    let t := s.loadReg g (swapNibbles (s.reg g))
    (t.reg g).toNat = (s.reg g).toNat % 16 * 16 + (s.reg g).toNat / 16 ∧
      SameBut { s with flags := { s.flags with zf := decide (t.reg g = 0), jf := true } } t [g] [] [] := by
  intro t
  obtain ⟨hreg, hframe⟩ := s.loadReg_frame g (swapNibbles (s.reg g))
  rw [hreg]
  exact ⟨swapNibbles_toNat _, hframe⟩

/-! ### The statements -/

/-- Settles O36: each of the eight is one shift of a register, with its result as a number. -/
theorem shiftRotate : Obligations.ShiftRotate := by
  intro s feed shifts left right rotl rotr
  have hleft (g : Reg) := s.shiftReg_frame g shlc rfl (shlc_toNat s.flags (s.reg g))
  have hright (g : Reg) := s.shiftReg_frame g shrc rfl (shrc_toNat s.flags (s.reg g))
  have hrotl (g : Reg) := s.shiftReg_frame g (rolc s.params) rfl (rolc_toNat s.params s.flags (s.reg g))
  have hrotr (g : Reg) := s.shiftReg_frame g (rorc s.params) rfl (rorc_toNat s.params s.flags (s.reg g))
  exact ⟨⟨rfl, _, rfl, hleft .a⟩, ⟨rfl, _, rfl, hright .a⟩, ⟨rfl, _, rfl, hrotl .a⟩, ⟨rfl, _, rfl, hrotr .a⟩,
    fun g => ⟨⟨rfl, _, rfl, hleft g⟩, ⟨rfl, _, rfl, hright g⟩, ⟨rfl, _, rfl, hrotl g⟩, ⟨rfl, _, rfl, hrotr g⟩⟩⟩

/-- Settles O37: SWAP loads a register with its own nibbles; a digit rotate is one read and one write where the mode
leads, then a load of A. -/
theorem nibbleOperations : Obligations.NibbleOperations := by
  intro s
  refine ⟨⟨rfl, _, rfl, s.swapReg_frame .a⟩, fun g => ⟨rfl, _, rfl, s.swapReg_frame g⟩, fun m h => ?_⟩
  intro p u v x
  obtain ⟨hrold, hroldA, hroldFrame⟩ := h.digitRotate_frame m rold
  obtain ⟨hrord, hrordA, hrordFrame⟩ := h.digitRotate_frame m rord
  obtain ⟨hmemL, haccL⟩ := rold_toNat (s.reg .a) (s.peek p)
  obtain ⟨hmemR, haccR⟩ := rord_toNat (s.reg .a) (s.peek p)
  rw [← hrold] at hmemL
  rw [← hroldA] at haccL
  rw [← hrord] at hmemR
  rw [← hrordA] at haccR
  exact ⟨⟨rfl, _, rfl, hmemL, haccL, hroldFrame⟩, ⟨rfl, _, rfl, hmemR, haccR, hrordFrame⟩⟩

end Sys2Proof.Machine
end

section
/-! ## Bits and the carry flag (R187 to R213) -/

namespace Sys2Proof.Machine

/-! ### One bit of a byte replaced -/

/-- `r` is the byte `v` with bit `b` replaced by `w`: what `BitWritten` says of the byte in memory (R187, R188). -/
def BitReplaced (v : Byte) (b : BitVec 3) (w : Bool) (r : Byte) : Prop :=
  ∀ j, j < 8 → r.getLsbD j = if j = b.toNat then w else v.getLsbD j

theorem getLsbD_bitMask (b : BitVec 3) {j : Nat} (hj : j < 8) : (bitMask b).getLsbD j = decide (j = b.toNat) := by
  rw [bitMask, BitVec.natCast_eq_ofNat, BitVec.getLsbD_ofNat, Nat.one_shiftLeft, Nat.testBit_two_pow, decide_eq_true hj,
    Bool.true_and]
  exact decide_eq_decide.mpr eq_comm

/-- Bit `b` of an OR with the mask is set. -/
theorem bitReplaced_bitSet (v : Byte) (b : BitVec 3) : BitReplaced v b true (bitSet v b) := by
  intro j hj
  rw [bitSet, BitVec.getLsbD_or, getLsbD_bitMask b hj]
  by_cases h : j = b.toNat <;> simp [h]

/-- Bit `b` of an AND with the inverted mask is clear. -/
theorem bitReplaced_bitClear (v : Byte) (b : BitVec 3) : BitReplaced v b false (bitClear v b) := by
  intro j hj
  rw [bitClear, BitVec.getLsbD_and, BitVec.getLsbD_not, getLsbD_bitMask b hj]
  by_cases h : j = b.toNat <;> simp [h, hj]

/-- Bit `b` of an XOR with the mask is the old bit, inverted. -/
theorem bitReplaced_bitFlip (v : Byte) (b : BitVec 3) : BitReplaced v b (!v.getLsbD b.toNat) (bitFlip v b) := by
  intro j hj
  rw [bitFlip, BitVec.getLsbD_xor, getLsbD_bitMask b hj]
  by_cases h : j = b.toNat <;> simp [h]

/-- A flag is put into a bit by clearing the bit and, where the flag is set, setting it. -/
theorem bitReplaced_bitPut (v : Byte) (b : BitVec 3) (c : Bool) : BitReplaced v b c (bitPut v b c) := by
  cases c with
  | false => simpa [bitPut] using bitReplaced_bitClear v b
  | true =>
    intro j hj
    have hset := bitReplaced_bitSet (bitClear v b) b j hj
    have hclear := bitReplaced_bitClear v b j hj
    rw [bitPut, if_pos rfl, ← bitSet, hset, hclear]
    split <;> rfl

/-! ### A bit of memory, at an address that `s` gives and in the state `u` after the side effect of the mode -/

section
variable {s u : State} {a : Word} (hu : u.Plain) (hpeek : u.peek a = s.peek a) (hflags : u.flags = s.flags)
include hu hpeek hflags

/-- A read-modify-write that replaces one bit. -/
theorem State.Plain.bitWritten_updateMem (b : BitVec 3) (k : Flags → Byte → Byte × Flags) {w : Bool}
    (hk : BitReplaced (s.peek a) b w (k s.flags (s.peek a)).1) :
    BitWritten s u (u.updateMem a k) a b w (k s.flags (s.peek a)).2 := by
  obtain ⟨hbyte, hframe⟩ := hu.updateMem_frame a k
  rw [hpeek, hflags] at hbyte hframe
  rw [← hbyte] at hk
  exact ⟨hk, hframe⟩

/-- SET, CLR and CPL, by what they do to the byte. -/
theorem State.Plain.bitWritten_changeBit (b : BitVec 3) {f : Byte → BitVec 3 → Byte} {w : Bool}
    (hf : BitReplaced (s.peek a) b w (f (s.peek a) b)) :
    BitWritten s u (u.changeBit a b f) a b w (testFlags s.flags (bitOf (s.peek a) b)) :=
  hu.bitWritten_updateMem hpeek hflags b (fun fl v => (f v b, testFlags fl (bitOf v b))) hf

/-- LD bit,CF. -/
theorem State.Plain.bitWritten_storeBit (b : BitVec 3) :
    BitWritten s u (u.storeBit a b) a b s.flags.cf (moveFlags s.flags) :=
  hu.bitWritten_updateMem hpeek hflags b (fun fl v => (bitPut v b fl.cf, moveFlags fl))
    (bitReplaced_bitPut (s.peek a) b s.flags.cf)

/-- A read whose byte goes into the flags alone. -/
theorem State.Plain.setFlags_memRead_frame (k : Flags → Byte → Flags) :
    SameBut { u with flags := k s.flags (s.peek a) }
      ((u.memRead a).2.setFlags (k (u.memRead a).2.flags (u.memRead a).1)) [] [] [.read a (s.peek a)] := by
  rw [hu.memRead, State.memRead_flags, ← hpeek, ← hflags]
  exact (u.sameBut_memRead a (hu.served a)).setFlags (k u.flags (u.peek a))

/-- TEST. -/
theorem State.Plain.testBit_frame (b : BitVec 3) :
    SameBut { u with flags := testFlags s.flags (bitOf (s.peek a) b) } (u.testBit a b) [] [] [.read a (s.peek a)] :=
  hu.setFlags_memRead_frame hpeek hflags fun fl v => testFlags fl (bitOf v b)

/-- LD CF,bit. -/
theorem State.Plain.loadBit_frame (b : BitVec 3) :
    SameBut { u with flags := carryFlags s.flags (bitOf (s.peek a) b) } (u.loadBit a b) [] [] [.read a (s.peek a)] :=
  hu.setFlags_memRead_frame hpeek hflags fun fl v => carryFlags fl (bitOf v b)

/-- XOR CF,bit. -/
theorem State.Plain.xorBit_frame (b : BitVec 3) :
    SameBut { u with flags := carryFlags s.flags (s.flags.cf ^^ bitOf (s.peek a) b) } (u.xorBit a b) [] []
      [.read a (s.peek a)] :=
  hu.setFlags_memRead_frame hpeek hflags fun fl v => carryFlags fl (fl.cf ^^ bitOf v b)

end

/-! ### A bit of a register -/

/-- An update of a register that replaces one bit. -/
theorem State.updateReg_bitReplaced (s : State) (g : Reg) (b : BitVec 3) (k : Flags → Byte → Byte × Flags) {w : Bool}
    (hk : BitReplaced (s.reg g) b w (k s.flags (s.reg g)).1) :
    BitReplaced (s.reg g) b w ((s.updateReg g k).reg g) ∧
      SameBut { s with flags := (k s.flags (s.reg g)).2 } (s.updateReg g k) [g] [] [] := by
  obtain ⟨hreg, hframe⟩ := s.updateReg_frame g k
  rw [hreg]
  exact ⟨hk, hframe⟩

/-- SET, CLR and CPL of a register, by what they do to its byte. -/
theorem State.changeRegBit_frame (s : State) (g : Reg) (b : BitVec 3) {f : Byte → BitVec 3 → Byte} {w : Bool}
    (hf : BitReplaced (s.reg g) b w (f (s.reg g) b)) :
    BitReplaced (s.reg g) b w ((s.changeRegBit g b f).reg g) ∧
      SameBut { s with flags := testFlags s.flags (bitOf (s.reg g) b) } (s.changeRegBit g b f) [g] [] [] :=
  s.updateReg_bitReplaced g b (fun fl v => (f v b, testFlags fl (bitOf v b))) hf

/-- The bit number that a register holds (R189). -/
theorem State.bitIndex_eq_extractLsb' (s : State) (g : Reg) : s.bitIndex g = (s.reg g).extractLsb' 0 3 :=
  BitVec.setWidth_eq_extractLsb' (by decide)

/-! ### The statements -/

/-- Settles O39: one read-modify-write or one read, at the direct address. -/
theorem bitDirect : Obligations.BitDirect := by
  intro s x b h a v
  exact ⟨⟨rfl, _, rfl, h.bitWritten_changeBit rfl rfl b (bitReplaced_bitSet _ b)⟩,
    ⟨rfl, _, rfl, h.bitWritten_changeBit rfl rfl b (bitReplaced_bitClear _ b)⟩,
    ⟨rfl, _, rfl, h.loadBit_frame rfl rfl b⟩⟩

/-- Settles O40: one read-modify-write where the mode leads; the mode changes neither the byte nor the flags. -/
theorem bitMemoryWrite : Obligations.BitMemoryWrite := by
  intro s m b h a u v
  have hu : u.Plain := h.resolve m
  have hpeek : u.peek a = s.peek a := h.peek_resolve m a
  have hflags : u.flags = s.flags := s.resolve_flags m
  exact ⟨⟨rfl, _, rfl, hu.bitWritten_changeBit hpeek hflags b (bitReplaced_bitSet _ b)⟩,
    ⟨rfl, _, rfl, hu.bitWritten_changeBit hpeek hflags b (bitReplaced_bitClear _ b)⟩,
    ⟨rfl, _, rfl, hu.bitWritten_changeBit hpeek hflags b (bitReplaced_bitFlip _ b)⟩,
    ⟨rfl, _, rfl, hu.bitWritten_storeBit hpeek hflags b⟩⟩

/-- Settles O41: one read where the mode leads; the mode changes neither the byte nor the flags. -/
theorem bitMemoryRead : Obligations.BitMemoryRead := by
  intro s m b h a u v
  have hu : u.Plain := h.resolve m
  have hpeek : u.peek a = s.peek a := h.peek_resolve m a
  have hflags : u.flags = s.flags := s.resolve_flags m
  exact ⟨⟨rfl, _, rfl, hu.testBit_frame hpeek hflags b⟩, ⟨rfl, _, rfl, hu.xorBit_frame hpeek hflags b⟩,
    ⟨rfl, _, rfl, hu.loadBit_frame hpeek hflags b⟩⟩

/-- Settles O42: four updates of a register that replace one bit, and two that write the flags alone. -/
theorem bitRegister : Obligations.BitRegister := by
  intro s g b v puts
  exact ⟨⟨rfl, _, rfl, s.changeRegBit_frame g b (bitReplaced_bitSet _ b)⟩,
    ⟨rfl, _, rfl, s.changeRegBit_frame g b (bitReplaced_bitClear _ b)⟩,
    ⟨rfl, _, rfl, s.changeRegBit_frame g b (bitReplaced_bitFlip _ b)⟩,
    ⟨rfl, _, rfl, s.updateReg_bitReplaced g b (fun fl x => (bitPut x b fl.cf, moveFlags fl))
      (bitReplaced_bitPut _ b s.flags.cf)⟩,
    ⟨rfl, _, rfl, (SameBut.refl s).setFlags (carryFlags s.flags (s.flags.cf ^^ v))⟩,
    ⟨rfl, _, rfl, (SameBut.refl s).setFlags (carryFlags s.flags v)⟩⟩

/-- Settles O43: the forms at a direct address, with the address from the pointer and the bit number from the
register. -/
theorem bitPointer : Obligations.BitPointer := by
  intro s hl g h
  rw [← s.bitIndex_eq_extractLsb' g]
  intro pp o a b v
  have hbytes (c : Byte) : regBytes g.code (c ||| ptrCode pp) [] = [0xE8 ||| g.code, c ||| o] := by
    cases hl <;> rfl
  exact ⟨⟨hbytes 0x82, _, rfl, h.bitWritten_changeBit rfl rfl b (bitReplaced_bitSet _ b)⟩,
    ⟨hbytes 0x8A, _, rfl, h.bitWritten_changeBit rfl rfl b (bitReplaced_bitClear _ b)⟩,
    ⟨hbytes 0x92, _, rfl, h.bitWritten_changeBit rfl rfl b (bitReplaced_bitFlip _ b)⟩,
    ⟨hbytes 0x9A, _, rfl, h.bitWritten_storeBit rfl rfl b⟩,
    ⟨hbytes 0x9E, _, rfl, h.loadBit_frame rfl rfl b⟩⟩

/-- Settles O38: the flags are written, and nothing else. -/
theorem carryFlag : Obligations.CarryFlag := by
  intro s
  have hframe (c : Bool) : SameBut { s with flags := { s.flags with cf := c, jf := !c } }
      (s.setFlags (carryFlags s.flags c)) [] [] [] := (SameBut.refl s).setFlags (carryFlags s.flags c)
  refine ⟨⟨rfl, _, rfl, hframe false⟩, ⟨rfl, _, rfl, hframe true⟩, ⟨rfl, _, rfl, ?_⟩⟩
  simpa only [Bool.not_not] using hframe (!s.flags.cf)

end Sys2Proof.Machine
end

section
/-! ## Control transfers (R215 to R233) -/

namespace Sys2Proof.Machine

/-! ### Where PC goes -/

/-- A branch that is taken where `c` holds (R217 to R220): PC alone, to start + 2 and the signed displacement. -/
theorem State.sameBut_branch_ite (s : State) (c : Bool) {n : Nat} (d : BitVec n) :
    SameBut { s with pc := if c then BitVec.ofInt 16 (s.start.toNat + 2 + d.toInt) else s.pc }
      (if c then s.branch (d.signExtend 16) else s) [] [] [] := by
  cases c with
  | false => exact SameBut.refl s
  | true =>
    have htarget : BitVec.ofInt 16 (s.start.toNat + 2 + d.toInt) = s.start + 2 + d.signExtend 16 := by
      rw [BitVec.ofInt_add, BitVec.ofInt_add, BitVec.ofInt_natCast, BitVec.ofNat_toNat, BitVec.setWidth_eq]
      rfl
    rw [if_pos rfl, if_pos rfl, htarget]
    exact (SameBut.refl s).jump (s.start + 2 + d.signExtend 16)

/-- JRS F,a is taken where JF is clear (R218). -/
theorem exec_jrsF (d : BitVec 5) (s : State) :
    exec (.jrsF d) s = .next (if !s.flags.jf then s.branch (d.signExtend 16) else s) := by
  change Host.Outcome.next (if s.flags.jf then s else s.branch (d.signExtend 16)) = _
  cases s.flags.jf <;> rfl

/-- A jump to a word that is read from memory. -/
theorem State.Plain.jump_memRead16_frame {u : State} (hu : u.Plain) (a : Word) :
    SameBut { u with pc := u.peek (a + 1) ++ u.peek a } ((u.memRead16 a).2.jump (u.memRead16 a).1) [] []
      [.read a (u.peek a), .read (a + 1) (u.peek (a + 1))] := by
  rw [hu.memRead16]
  exact (hu.sameBut_memRead16 a).jump (joinBytes (u.peek a) (u.peek (a + 1)))

/-! ### Calls, after the reads that find the target -/

/-- A call in a state that differs from `u` by the bus accesses `acc` alone: PC is pushed, as in `u`. -/
theorem SameBut.call {u v : State} {acc : List BusAccess} (h : SameBut u v [] [] acc) (hu : u.Plain) (target : Word) :
    (v.call target).peek (u.sp - 1) ++ (v.call target).peek (u.sp - 2) = u.pc ∧
      SameBut { u with pc := target, sp := u.sp - 2 } (v.call target) [] [u.sp - 1, u.sp - 2]
        (acc ++ [.write (u.sp - 1) ((v.call target).peek (u.sp - 1)),
          .write (u.sp - 2) ((v.call target).peek (u.sp - 2))]) := by
  obtain ⟨hpushed, hcall⟩ := (h.plain hu).call_frame target
  rw [h.sp, h.pc] at hpushed
  rw [h.sp] at hcall
  exact ⟨hpushed, ((h.jump target).withSp (u.sp - 2)).trans hcall⟩

/-- A call to a word that is read from memory before the push. -/
theorem State.Plain.call_memRead16_frame {u : State} (hu : u.Plain) (a : Word) :
    let t := (u.memRead16 a).2.call (u.memRead16 a).1
    t.peek (u.sp - 1) ++ t.peek (u.sp - 2) = u.pc ∧
      SameBut { u with pc := u.peek (a + 1) ++ u.peek a, sp := u.sp - 2 } t [] [u.sp - 1, u.sp - 2]
        ([.read a (u.peek a), .read (a + 1) (u.peek (a + 1))] ++
          [.write (u.sp - 1) (t.peek (u.sp - 1)), .write (u.sp - 2) (t.peek (u.sp - 2))]) := by
  rw [hu.memRead16]
  exact (hu.sameBut_memRead16 a).call hu (joinBytes (u.peek a) (u.peek (a + 1)))

/-- The address of a vector of CALLV (R227). -/
theorem callvVector_eq (base : Word) (v : BitVec 4) :
    base + 2 * v.setWidth 16 = BitVec.ofNat 16 (base.toNat + 2 * v.toNat) := by
  bv_omega

/-! ### The statements -/

/-- Settles O46: PC is written on both sides of the frame of the reads. -/
theorem jumps : Obligations.Jumps := by
  intro s
  refine ⟨fun n m => ⟨congrArg ([0xFF, 0xFE] ++ ·) (wordBytes_append m n), _, rfl, (SameBut.refl s).jump (m ++ n)⟩,
    fun gg => ⟨rfl, _, rfl, (SameBut.refl s).jump (s.pair gg)⟩, fun m h => ⟨rfl, _, rfl, ?_⟩⟩
  simpa only [h.peek_resolve] using (h.resolve m).jump_memRead16_frame (s.resolve m).1

/-- Settles O47: the reads of the target, if any, then one call; a mode changes neither PC nor SP. -/
theorem calls : Obligations.Calls := by
  intro s h
  refine ⟨fun n m => ⟨congrArg ([0xFF, 0xFC] ++ ·) (wordBytes_append m n), _, rfl, (SameBut.refl s).call h (m ++ n)⟩,
    fun gg => ⟨rfl, _, rfl, (SameBut.refl s).call h (s.pair gg)⟩, fun m => ⟨rfl, _, rfl, ?_⟩,
    fun v => ⟨rfl, _, rfl, ?_⟩, fun n => ⟨rfl, _, rfl, (SameBut.refl s).call h (s.params.callpPage ++ n)⟩⟩
  · simpa only [h.peek_resolve, State.resolve_sp, State.resolve_pc] using
      (h.resolve m).call_memRead16_frame (s.resolve m).1
  · rw [callvVector_eq]
    exact h.call_memRead16_frame _

/-- Settles O48: RET jumps to the word popped; RETI and RETN leave the frame, and RETI then sets IMF. -/
theorem returns : Obligations.Returns := by
  intro s h
  refine ⟨⟨rfl, _, rfl, ?_⟩, ⟨rfl, _, rfl, h.leave_frame.withImf true⟩, ⟨rfl, _, rfl, h.leave_frame⟩⟩
  rw [h.pop16]
  exact h.sameBut_pop16.jump _

/-- Settles O44: the frame of no change; with RBS written, a register name means the register of the new bank. -/
theorem nopAndBankSelect : Obligations.NopAndBankSelect := by
  exact fun s => ⟨⟨rfl, rfl⟩, fun n => ⟨rfl, _, rfl, BitVec.toNat_setWidth 4 n, (SameBut.refl s).withRbs _,
    fun _ => rfl⟩⟩

/-- Settles O45: each is one branch, taken on its own condition. -/
theorem branches : Obligations.Branches := by
  intro s go
  have hcc (cc : Cond) (d : Byte) : go (.jrCc cc d) (condHolds s.flags cc) d.toInt :=
    ⟨_, rfl, s.sameBut_branch_ite _ d⟩
  refine ⟨fun d => ⟨rfl, _, rfl, s.sameBut_branch_ite _ d⟩,
    fun d => ⟨rfl, _, exec_jrsF d s, s.sameBut_branch_ite _ d⟩,
    fun d => ⟨⟨rfl, hcc .eq d⟩, ⟨rfl, hcc .ne d⟩, ⟨rfl, hcc .lt d⟩, ⟨rfl, hcc .ge d⟩, ⟨rfl, hcc .le d⟩, ⟨rfl, ?_⟩,
      ⟨rfl, hcc .always d⟩, ⟨rfl, hcc .never d⟩⟩,
    fun d => ⟨rfl, _, rfl, s.sameBut_branch_ite true d⟩⟩
  rw [← Bool.not_or]
  exact hcc .gt d

end Sys2Proof.Machine
end

section
/-! ## The boundary, the acceptance of a request, and illegal bytes (R92, R235, R237, R238, R240, R241, R243) -/

namespace Sys2Proof.Machine

/-! ### IMF and the stores of the core (R243) -/

/-- The mirror looks at IMF and at the parameters alone. -/
theorem State.mirrorImf_imf_congr {s t : State} (hp : t.params = s.params) (hi : t.imf = s.imf) (a : Word) (v : Byte) :
    (t.mirrorImf a v).imf = (s.mirrorImf a v).imf := by
  simp only [State.mirrorImf, hp]
  split
  · exact hi
  · split
    · rfl
    · exact hi

/-- A store reaches IMF through the mirror alone, whether memory keeps the byte or a device takes it. -/
theorem State.memWrite_imf (s : State) (a : Word) (v : Byte) : (s.memWrite a v).imf = (s.mirrorImf a v).imf := by
  unfold State.memWrite
  refine State.mirrorImf_imf_congr ?_ ?_ a v
  · dsimp only; split <;> rfl
  · dsimp only; split <;> rfl

theorem State.mirrorImf_of_none {s : State} (h : s.params.imfAlias = none) (a : Word) (v : Byte) :
    s.mirrorImf a v = s := by
  simp only [State.mirrorImf, h]

theorem State.mirrorImf_of_eq {s : State} {a : Word} {k : BitVec 3} (h : s.params.imfAlias = some (a, k)) (v : Byte) :
    s.mirrorImf a v = { s with imf := v.getLsbD k.toNat } := by
  simp only [State.mirrorImf, h, if_true]

theorem State.mirrorImf_of_ne {s : State} {a b : Word} {k : BitVec 3} (h : s.params.imfAlias = some (b, k))
    (hab : a ≠ b) (v : Byte) : s.mirrorImf a v = s := by
  simp only [State.mirrorImf, h, if_neg hab]

/-- Settles O11: a store sets IMF as the mirror does, whose three cases are those of the parameter and the address. -/
theorem imfAlias : Obligations.ImfAlias := by
  intro s a v
  refine ⟨fun k h => ?_, fun b k h hab => ?_, fun h => ?_, _, rfl, rfl⟩
  · rw [State.memWrite_imf, State.mirrorImf_of_eq h]
  · rw [State.memWrite_imf, State.mirrorImf_of_ne h hab]
  · rw [State.memWrite_imf, State.mirrorImf_of_none h]

/-! ### What a boundary samples (R237) -/

theorem State.applyReset_of_not_reset {s : State} (h : s.inputs.reset = false) : s.applyReset = s := by
  simp [State.applyReset, h]

/-- A pending `imf_write` reaches IMF alone, and sets it to bit 0. -/
theorem State.applyImfWrite_eq (s : State) :
    s.applyImfWrite = { s with imf := (s.inputs.imfWrite.map (·.getLsbD 0)).getD s.imf } := by
  unfold State.applyImfWrite
  cases s.inputs.imfWrite <;> rfl

/-- Moving the inputs on reaches `inputs` and `later` alone. -/
theorem State.advanceInputs_eq (s : State) :
    s.advanceInputs = { s with inputs := s.advanceInputs.inputs, later := s.advanceInputs.later } := by
  unfold State.advanceInputs
  cases s.later <;> rfl

/-- Settles O55: without reset the boundary is four updates, each of fields of its own. -/
theorem boundarySampling : Obligations.BoundarySampling := by
  intro s hreset
  have hunreset : s.beginStep.applyReset = s.beginStep := State.applyReset_of_not_reset hreset
  rw [State.boundary, hunreset, State.applyImfWrite_eq, State.advanceInputs_eq]
  dsimp only [State.beginStep]
  cases s.inputs.imfWrite <;> rfl

/-! ### What a boundary chooses (R238) -/

/-- A non-maskable request is accepted before the maskable lines are looked at. -/
theorem State.choose_eq_acceptNmi {u : State} (levels : List Bool) (h : u.nmip = true) :
    u.choose levels = .next u.acceptNmi := by
  simp only [State.choose, h, if_true]

/-- With IMF set and no non-maskable request, the lowest asserted line is accepted. -/
theorem State.choose_eq_acceptIrq {u : State} {inputs : Inputs} {k : Nat} (hk : k < u.params.vecIrq.length)
    (hnmip : u.nmip = false) (himf : u.imf = true) (hline : inputs.irq.getD k false = true) (hcalm : inputs.calm k) :
    u.choose inputs.irq = .next (u.acceptIrq k u.params.vecIrq[k]) := by
  have hlowest : lowestIrq inputs.irq u.params.vecIrq 0 = some (k, u.params.vecIrq[k]) := by
    rw [lowestIrq_some inputs.irq u.params.vecIrq 0 k hk hline hcalm, Nat.zero_add]
  simp only [State.choose, hnmip, himf, hlowest, if_true, Bool.false_eq_true, if_false]

theorem State.Plain.boundary {s : State} (h : s.Plain) : s.boundary.Plain := h.of_eq s.boundary_params s.boundary_io

/-- Settles O53: the request is chosen first, and its acceptance is the entry with NMIP clear. -/
theorem acceptNonMaskable : Obligations.AcceptNonMaskable := by
  intro s h hnmip
  rw [← s.boundary_params]
  have hplain : State.Plain { s.boundary with nmip := false } := h.boundary
  exact ⟨_, hplain.enter_frame s.boundary.params.vecNmi, State.choose_eq_acceptNmi s.inputs.irq hnmip, rfl⟩

/-- Settles O54: the lowest asserted line is chosen, and its acceptance is the entry with the line acknowledged. -/
theorem acceptMaskable : Obligations.AcceptMaskable := by
  intro s k hk h hnmip himf hline hcalm
  simp only [← s.boundary_params] at hk ⊢
  have hplain : State.Plain { s.boundary with ack := some k } := h.boundary
  exact ⟨_, hplain.enter_frame s.boundary.params.vecIrq[k], State.choose_eq_acceptIrq hk hnmip himf hline hcalm, rfl⟩

/-! ### Bytes that match no instruction (R92, R235) -/

/-- Bytes that match no instruction, and do so no sooner than with the last of them, are 1 to 4 bytes (R94). -/
theorem illegal_length {bytes : List Byte} {why : Illegal} (hillegal : decode bytes = .illegal why)
    (hmore : ∀ k, k < bytes.length → decode (bytes.take k) = .more) : bytes ≠ [] ∧ bytes.length ≤ 4 := by
  constructor
  · rintro rfl
    nomatch hillegal
  · by_contra hlong
    have hlen : 4 ≤ (bytes.take 4).length := by rw [List.length_take]; omega
    exact decodeNeedsAtMostFourBytes.1 _ hlen (hmore 4 (by omega))

/-- Such bytes are fetched to the last one and no further (R71, R92). -/
theorem State.fetchInstr_illegal {s : State} {bytes : List Byte} {why : Illegal}
    (hillegal : decode bytes = .illegal why) (hmore : ∀ k, k < bytes.length → decode (bytes.take k) = .more)
    (hio : s.io = []) (hbytes : ∀ k, (h : k < bytes.length) → s.peek (s.pc + BitVec.ofNat 16 k) = bytes[k]) :
    s.fetchInstr [] 4 = (bytes, none, s.fetched bytes) := by
  obtain ⟨hne, hle⟩ := illegal_length hillegal hmore
  exact State.fetchInstr_eq (.illegal why) none (.inr ⟨why, rfl, rfl⟩) bytes [] s 4 hne hle hio
    (fun k _ hk => hmore k hk) hillegal hbytes

/-- Where the fetch finds no instruction, the bytes are reported and nothing is executed (R72, R235). -/
theorem State.runInstr_of_no_instr {s u : State} {bytes : List Byte}
    (hfetch : State.fetchInstr { s with start := s.pc } [] 4 = (bytes, none, u)) :
    s.runInstr = .next (u.report (.illegal bytes)) := by
  simp only [State.runInstr, hfetch]

/-- Settles O52: nothing is accepted, the fetch ends with the byte that rules out every instruction, and the step with
the report. -/
theorem illegalStep : Obligations.IllegalStep := by
  intro s bytes why u hillegal hmore hio hnmip hirq hbytes t
  have huio : u.io = [] := s.boundary_io.trans hio
  have hfetch := State.fetchInstr_illegal (s := { u with start := u.pc }) hillegal hmore huio hbytes
  refine ⟨?_, rfl⟩
  rw [← s.boundary_params] at hirq
  calc step s = u.runInstr := State.choose_eq_runInstr hnmip hirq
    _ = .next t := State.runInstr_of_no_instr hfetch

end Sys2Proof.Machine
end

section
/-! ## The reset input at a boundary (R252, R253) -/

namespace Sys2Proof.Machine

/-- With no device, a read gives the byte of plain memory and adds itself to the bus list (R51, R63). -/
theorem State.memRead_eq {s : State} (hio : s.io = []) (a : Word) :
    s.memRead a = (s.peek a, { s with bus := s.bus ++ [.read a (s.peek a)] }) := by
  simp [State.memRead, s.served_of_io_nil a hio]

/-- With no device, a word read is two reads of plain memory, the low byte first (R52). -/
theorem State.memRead16_eq {s : State} (hio : s.io = []) (a : Word) :
    s.memRead16 a = (joinBytes (s.peek a) (s.peek (a + 1)),
      { s with bus := s.bus ++ [.read a (s.peek a), .read (a + 1) (s.peek (a + 1))] }) := by
  have hio' : (s.memRead a).2.io = [] := (s.memRead_io a).trans hio
  simp only [State.memRead16, State.memRead_eq hio', State.peek_memRead]
  simp only [State.memRead_eq hio, List.append_assoc, List.cons_append, List.nil_append]

/-- With no device, loading PC through a vector changes PC and the bus list alone, whatever the aliases (R239, R252). -/
theorem State.loadVector_eq {s : State} (hio : s.io = []) (v : Word) :
    s.loadVector v = { s with pc := vectorTarget s v, bus := s.bus ++ vectorReads s v } := by
  unfold State.loadVector vectorTarget vectorReads
  cases s.params.vectorMode with
  | indirect => simp only [State.memRead16_eq hio]
  | direct => simp only [List.append_nil]

theorem State.applyReset_of_reset {s : State} (h : s.inputs.reset = true) : s.applyReset = s.resetSequence := by
  simp [State.applyReset, h]

/-- What the reset sequence leaves, where no device serves the vector (R252). -/
theorem State.resetSequence_eq {s : State} (hio : s.io = []) :
    s.resetSequence = { s with
      bank := State.reset.bank
      rbs := 0
      sp := State.reset.sp
      flags := State.reset.flags
      imf := false
      nmip := false
      nmil := s.inputs.nmi
      pc := vectorTarget s s.params.vecReset
      bus := s.bus ++ vectorReads s s.params.vecReset } := by
  refine (State.loadVector_eq ?_ _).trans rfl
  exact hio

/-- A line whose level NMIL already holds is no edge (R237, R253). -/
theorem State.sampleNmi_of_level {s : State} (h : s.nmil = s.inputs.nmi) : s.sampleNmi = s := by
  have hedge : (s.nmip || (!s.nmil && s.inputs.nmi)) = s.nmip := by simp [h]
  unfold State.sampleNmi
  rw [hedge, ← h]

/-- With the reset input asserted and no `imf_write` pending, the boundary is the reset sequence: the sampling after it
finds no edge, since NMIL has just taken the level of the line (R252, R253). -/
theorem State.boundary_of_reset {s : State} (hreset : s.inputs.reset = true) (hwrite : s.inputs.imfWrite = none) :
    s.boundary = s.beginStep.resetSequence.advanceInputs := by
  have hsequence : s.beginStep.applyReset = s.beginStep.resetSequence := State.applyReset_of_reset hreset
  have hinputs : s.beginStep.resetSequence.inputs = s.inputs := State.loadVector_inputs _ _
  have hlevel : s.beginStep.resetSequence.nmil = s.inputs.nmi := State.loadVector_nmil _ _
  have hkept : s.beginStep.resetSequence.applyImfWrite = s.beginStep.resetSequence := by
    simp only [State.applyImfWrite, hinputs, hwrite]
  rw [State.boundary, hsequence, hkept, State.sampleNmi_of_level (hlevel.trans (congrArg _ hinputs.symm))]

/-- Settles O56: the boundary is the reset sequence, whose fields are read off, and with NMIP and IMF clear the step
that follows accepts nothing. -/
theorem resetSequence : Obligations.ResetSequence := by
  intro s hio hreset hwrite u
  have hu : u = s.beginStep.resetSequence.advanceInputs := State.boundary_of_reset hreset hwrite
  rw [State.resetSequence_eq (s := s.beginStep) hio, State.advanceInputs_eq] at hu
  have himf : u.imf = false := hu ▸ rfl
  have hnmip : u.nmip = false := hu ▸ rfl
  exact ⟨hu ▸ rfl, himf, hnmip, hu ▸ rfl, hu ▸ rfl, hu ▸ rfl, s.boundary_mem, s.boundary_events, hu ▸ rfl,
    s.boundary_params, State.choose_eq_runInstr hnmip (.inl himf)⟩

end Sys2Proof.Machine
end
